-- ==== Sys2Proof/Word.lean ====
section
/-! DEFINITION. The widths and the two-valued level that the block's state and ports are made of. -/

namespace Sys2Proof

/-- An element of S_PKT or of the data port (20_memory.md R37). -/
abbrev Byte := BitVec 8

/-- The command word CMD (30_encoding.md R51). -/
abbrev CmdWord := BitVec 16

/-- A level: one half-bit period of output (00_scope.md R11). High is 1, carrier on; Low is 0, carrier off
(10_state.md R21). -/
inductive Level where
  | low
  | high
deriving DecidableEq, Repr, Inhabited

end Sys2Proof
end

