-- ==== Sys2Proof/Config.lean ====
section
/-! DEFINITION. The implementation parameters of 00_scope.md R8, and the values the spec leaves open. -/

namespace Sys2Proof

/-- The parameters of 00_scope.md R8. The shared operations take any `Config`, so that a claim can be made for every
CAP and every WAKEUP (92_eei_decisions.md D27, D5); the machine of this package runs at `Config.hw`. -/
structure Config where
  /-- CAP: waveform buffer capacity in levels. -/
  cap : Nat
  /-- WAKEUP: the preamble bytes W[0..3], W[0] sent first (20_memory.md R40). -/
  wakeup : Vector Byte 4
  /-- HDR_HIGH: High levels at the start of the header. -/
  hdrHigh : Nat
  /-- HDR_LOW: Low levels after them. -/
  hdrLow : Nat
  /-- STOP_LOW: Low levels of the stop field. -/
  stopLow : Nat
  /-- N_ATTEMPTS: accepted attempts per arm. -/
  nAttempts : Nat
  /-- T_ATTEMPT: the per-attempt deadline, in clock units. -/
  tAttempt : Nat
  /-- CLK_W: the width in bits of the clock operand NOW. -/
  clkW : Nat
  /-- PKT_MAX: bytes S_PKT can hold. -/
  pktMax : Nat
  /-- T_LEVEL in microseconds. Informative: no step reads it (60_exceptions.md R107). -/
  tLevelUs : Nat
  /-- CLK_UNIT in microseconds. Informative: no step reads it (70_reset_and_hazards.md R127). -/
  clkUnitUs : Nat
deriving DecidableEq, Repr

/-- W[k], the wake-up preamble. OPEN: no document gives its value (91_not_in_source.md N1, 93 U1). DESIGN CHOICE of form:
a constant without a body (log entry 6); safe. -/
opaque Config.wakeupByte : Fin 4 → Byte

/-- How many bits CLK_W has above 17. OPEN (93 U2). DEDUCED: T_ATTEMPT = 100000 < 2^CLK_W (92_eei_decisions.md D12) holds
exactly when CLK_W is at least 17 (log entry 7); safe. -/
opaque Config.clkWidthAbove17 : Nat

/-- What an index past the CAP levels of TX_BUF reads as: a free value. No rule gives one, and only a state that no run
reaches asks for it. DESIGN CHOICE (log entry 11); safe. -/
opaque Config.strayLevel : Nat → Level

/-- This hardware's parameters (00_scope.md R8). -/
def Config.hw : Config where
  cap := 224
  wakeup := #v[Config.wakeupByte 0, Config.wakeupByte 1, Config.wakeupByte 2, Config.wakeupByte 3]
  hdrHigh := 3
  hdrLow := 7
  stopLow := 5
  nAttempts := 5
  tAttempt := 100000
  clkW := 17 + Config.clkWidthAbove17
  pktMax := 255
  tLevelUs := 400
  clkUnitUs := 1

/-- What a configuration must meet for the field widths of 10_state.md R14 to hold its values: 8-bit lengths
(92_eei_decisions.md D29), the 3-bit S_REMAIN, any LEN in S_PKT (D21), T_ATTEMPT < 2^CLK_W (D12), and the framing of R76. -/
abbrev Config.WellFormed (c : Config) : Prop :=
  c.cap ≤ 255 ∧ c.nAttempts ≤ 7 ∧ 255 ≤ c.pktMax ∧ c.tAttempt < 2 ^ c.clkW ∧ 0 < c.stopLow

end Sys2Proof
end

