-- ==== Sys2Proof/Syntax.lean ====
section
/-! DEFINITION. The nine operations (30_encoding.md R53) and the ports one issue of an operation sets (R51). -/

namespace Sys2Proof

/-- Who issues an operation (00_scope.md R12). -/
inductive Context where
  | foreground
  | interrupt
deriving DecidableEq, Repr

/-- One operation of the command interface, its operands decoded. One constructor per row of opcode_table.json. -/
inductive Instr where
  /-- ENCODE, the command bytes D[0..L−1] (41_waveform_encoder.md R75). -/
  | encode (data : List Byte)
  /-- TX_START (42_transmitter.md R87). -/
  | txStart
  /-- TX_STATUS (42_transmitter.md R92). -/
  | txStatus
  /-- TX_TICK (42_transmitter.md R88). -/
  | txTick
  /-- SCHED_ARM, the packet bytes D[0..L−1] (40_scheduler.md R63). -/
  | schedArm (data : List Byte)
  /-- SCHED_CANCEL (40_scheduler.md R65). -/
  | schedCancel
  /-- SCHED_TICK, the clock operand NOW (40_scheduler.md R66). -/
  | schedTick (now : Nat)
  /-- SCHED_STATUS (40_scheduler.md R70). -/
  | schedStatus
  /-- PIN_CLEAR (42_transmitter.md R96). -/
  | pinClear
deriving DecidableEq, Repr

/-- What the outside sets on the command interface for one operation (30_encoding.md R51). -/
structure Issue where
  /-- The issuing context. -/
  ctx : Context
  /-- The command word CMD. -/
  cmd : CmdWord
  /-- The data port; an operation with length LEN reads D[0..LEN−1] and no other byte. DESIGN CHOICE: the port always
  has 255 bytes, the most LEN can ask for (log entry 9). -/
  data : Vector Byte 255
  /-- The monotonic clock's count at this issue, in CLK_UNITs; the operand NOW is this count modulo 2^CLK_W
  (60_exceptions.md R108, log entry 8). -/
  clock : Nat
deriving DecidableEq, Repr

end Sys2Proof
end

