-- ==== Sys2Proof/WellFormed.lean ====
section
/-! DEFINITION. Which terms of `Instr` the command interface can deliver. -/

namespace Sys2Proof

/-- The operands are in range: LEN is one byte, so at most 255 data bytes (30_encoding.md R52, R54), and NOW is a CLK_W-bit
value (R54). -/
def Instr.wfFor (c : Config) : Instr → Bool
  | .encode data => decide (data.length ≤ 255)
  | .schedArm data => decide (data.length ≤ 255)
  | .schedTick now => decide (now < 2 ^ c.clkW)
  | .txStart => true
  | .txStatus => true
  | .txTick => true
  | .schedCancel => true
  | .schedStatus => true
  | .pinClear => true

/-- Well-formed for this hardware. -/
def Instr.wf (i : Instr) : Bool := i.wfFor Config.hw

end Sys2Proof
end

