-- ==== Sys2Proof/Decode.lean ====
section
/-! DEFINITION. The decoder of 30_encoding.md R58, total on every word in either context, and the encoder. -/

namespace Sys2Proof

/-- Why a command word is REFUSED (30_encoding.md R56, R57). Every constructor is raised by the decoder, leaves the block
unchanged and is safe. -/
inductive DecodeError where
  /-- RSV ≠ 0. -/
  | reservedBits
  /-- OP is 0x0 or 0xA..0xF. -/
  | reservedOp
  /-- LEN ≠ 0 on an operation that takes no data. -/
  | lengthNotZero
  /-- TX_TICK from the foreground, or any other operation from the interrupt. -/
  | wrongContext
deriving DecidableEq, Repr

/-- CMD[3:0] (30_encoding.md R52). -/
def opField (w : CmdWord) : BitVec 4 := w.extractLsb' 0 4

/-- CMD[7:4] (30_encoding.md R52). -/
def rsvField (w : CmdWord) : BitVec 4 := w.extractLsb' 4 4

/-- CMD[15:8] (30_encoding.md R52). -/
def lenField (w : CmdWord) : BitVec 8 := w.extractLsb' 8 8

/-- The data bytes D[0..LEN−1] in port order (30_encoding.md R54). -/
def Issue.dataBytes (p : Issue) : List Byte := p.data.toList.take (lenField p.cmd).toNat

/-- NOW, the clock's count in CLK_W bits (30_encoding.md R54, 60_exceptions.md R108). -/
def Issue.now (c : Config) (p : Issue) : Nat := p.clock % 2 ^ c.clkW

/-- The operation an OP value selects, its operands taken from the ports (30_encoding.md R53, R54); none for a reserved OP. -/
def selectOp (c : Config) (p : Issue) : Option Instr :=
  match (opField p.cmd).toNat with
  | 1 => some (.encode p.dataBytes)
  | 2 => some .txStart
  | 3 => some .txStatus
  | 4 => some .txTick
  | 5 => some (.schedArm p.dataBytes)
  | 6 => some .schedCancel
  | 7 => some (.schedTick (p.now c))
  | 8 => some .schedStatus
  | 9 => some .pinClear
  | _ => none

/-- Whether an operation uses the data port (30_encoding.md R52). -/
def Instr.takesData : Instr → Bool
  | .encode _ => true
  | .schedArm _ => true
  | .txStart => false
  | .txStatus => false
  | .txTick => false
  | .schedCancel => false
  | .schedTick _ => false
  | .schedStatus => false
  | .pinClear => false

/-- The one context an operation may be issued from (30_encoding.md R57). -/
def Instr.context : Instr → Context
  | .txTick => .interrupt
  | .encode _ => .foreground
  | .txStart => .foreground
  | .txStatus => .foreground
  | .schedArm _ => .foreground
  | .schedCancel => .foreground
  | .schedTick _ => .foreground
  | .schedStatus => .foreground
  | .pinClear => .foreground

/-- The decoder, with its tests in the order of 30_encoding.md R58. -/
def decodeFor (c : Config) (p : Issue) : Except DecodeError Instr :=
  if rsvField p.cmd ≠ 0#4 then .error .reservedBits
  else match selectOp c p with
    | none => .error .reservedOp
    | some i =>
      if i.takesData = false ∧ lenField p.cmd ≠ 0#8 then .error .lengthNotZero
      else if p.ctx ≠ i.context then .error .wrongContext
      else .ok i

/-- The decoder of this hardware. -/
def decode (p : Issue) : Except DecodeError Instr := decodeFor Config.hw p

/-! The encoder, from the same table (30_encoding.md R52, R53, R59). -/

/-- The OP value of an operation (30_encoding.md R53). -/
def Instr.op : Instr → BitVec 4
  | .encode _ => 1#4
  | .txStart => 2#4
  | .txStatus => 3#4
  | .txTick => 4#4
  | .schedArm _ => 5#4
  | .schedCancel => 6#4
  | .schedTick _ => 7#4
  | .schedStatus => 8#4
  | .pinClear => 9#4

/-- The bytes an operation puts on the data port. -/
def Instr.dataOperand : Instr → List Byte
  | .encode data => data
  | .schedArm data => data
  | .txStart => []
  | .txStatus => []
  | .txTick => []
  | .schedCancel => []
  | .schedTick _ => []
  | .schedStatus => []
  | .pinClear => []

/-- The clock operand of SCHED_TICK; the other operations leave the port at 0. -/
def Instr.clockOperand : Instr → Nat
  | .schedTick now => now
  | .encode _ => 0
  | .txStart => 0
  | .txStatus => 0
  | .txTick => 0
  | .schedArm _ => 0
  | .schedCancel => 0
  | .schedStatus => 0
  | .pinClear => 0

/-- The command word `(LEN << 8) | OP`: LEN in 15:8, RSV = 0 in 7:4, OP in 3:0 (30_encoding.md R52, R59). -/
def encodeWord (i : Instr) : CmdWord :=
  (BitVec.ofNat 8 i.dataOperand.length).setWidth 16 <<< 8 ||| i.op.setWidth 16

/-- `n` bytes that begin with those of `d`, zeros after them. -/
def padTo : Nat → List Byte → List Byte
  | 0, _ => []
  | n + 1, [] => 0#8 :: padTo n []
  | n + 1, x :: xs => x :: padTo n xs

theorem padTo_length (n : Nat) (d : List Byte) : (padTo n d).length = n := by
  induction n generalizing d with
  | zero => rfl
  | succ n ih => cases d <;> simp [padTo, ih]

/-- A data port that shows `d` from D[0] on and zeros after it. -/
def dataPort (d : List Byte) : Vector Byte 255 := ⟨⟨padTo 255 d⟩, padTo_length 255 d⟩

/-- The issue of an operation: its word, its operands on the ports, from the context it belongs to. -/
def encode (i : Instr) : Issue where
  ctx := i.context
  cmd := encodeWord i
  data := dataPort i.dataOperand
  clock := i.clockOperand

/-- The context in which a word's OP may be issued: the interrupt for OP = 4, else the foreground (30_encoding.md R57). -/
def contextOfWord (w : CmdWord) : Context := if opField w = 4#4 then .interrupt else .foreground

/-- The issue of a bare word of `nbits` bits: the bits above it, and the ports the table gives no bits, are 0. -/
def issueOfWord (nbits w : Nat) : Issue where
  ctx := contextOfWord (BitVec.ofNat 16 (w % 2 ^ nbits))
  cmd := BitVec.ofNat 16 (w % 2 ^ nbits)
  data := dataPort []
  clock := 0

/-- The instruction the decoder reads from a word of the opcode table. -/
def decodeTableWord (nbits w : Nat) : Option Instr :=
  match decode (issueOfWord nbits w) with
  | .ok i => some i
  | .error _ => none

end Sys2Proof
end

