-- ==== Sys2Proof/Machine/State.lean ====
section
/-! DEFINITION. The block's state (10_state.md R14), the interface's ports, the ways a step can stop, and reset. -/

namespace Sys2Proof.Machine

/-- TX_STATE (10_state.md R18). The value 3 is never produced, so the type has three constructors. -/
inductive TxState where
  | idle
  | sending
  | justCompleted
deriving DecidableEq, Repr

/-- The block's architectural state: the record of 10_state.md R14, these fields and no others. -/
structure Block where
  /-- ENC_BUF, CAP levels: the last Waveform ENCODE built stands in its first ENC_LEN levels (R16). -/
  encBuf : List Level
  /-- ENC_LEN (R16). -/
  encLen : BitVec 8
  /-- ENC_VALID: the Waveform is neither consumed nor invalidated (R16). -/
  encValid : Bool
  /-- TX_STATE (R18). -/
  txState : TxState
  /-- TX_CURSOR: index in TX_BUF of the next level to output (R19). -/
  txCursor : BitVec 8
  /-- TX_BUF, CAP levels: the active Waveform (R20). -/
  txBuf : List Level
  /-- TX_LEN (R20). -/
  txLen : BitVec 8
  /-- RF_PIN: the level driven onto the RF pin (R21). -/
  rfPin : Level
  /-- S_ACTIVE: a SendRequest exists (R23). -/
  sActive : Bool
  /-- S_REMAIN: attempts that remain (R24). -/
  sRemain : BitVec 3
  /-- S_DUE: the deadline is cleared, the next attempt may fire at once (R25). -/
  sDue : Bool
  /-- S_LAST: NOW of the last accepted attempt, a CLK_W-bit count (R25). -/
  sLast : Nat
  /-- S_PKT, PKT_MAX bytes: the armed packet in its first S_LEN bytes (R26). -/
  sPkt : List Byte
  /-- S_LEN (R26). -/
  sLen : BitVec 8
deriving DecidableEq, Repr

/-- STATUS of a response (30_encoding.md R55). REFUSED is the decoder's and never stands in a state. -/
inductive Status where
  | ok
  | busy
  | overflow
  | invalid
  | refused
deriving DecidableEq, Repr

/-- A response: STATUS and RESULT (30_encoding.md R55). -/
structure Response where
  status : Status
  result : BitVec 8
deriving DecidableEq, Repr

/-- The reasons for a fault: none. The block raises no exception, has no trap mechanism and no halt state
(60_exceptions.md R98, R101; log entry 15). -/
inductive Fault where
deriving DecidableEq, Repr

/-- The reasons for a refusal. -/
inductive Refusal where
  /-- Raised by `exec` for an operation without a meaning; no arm of this model raises it. Safe. -/
  | notModelled (mnemonic : String)
  /-- Raised by `step` for a command word the decoder refuses: a reserved word or the wrong context (30_encoding.md R56,
  R57). The mark R56 asks of a model; the block's answer is `Refusal.response`. Safe. -/
  | commandRefused (why : DecodeError) (cmd : CmdWord) (ctx : Context)
deriving DecidableEq, Repr

/-- The block and its command interface. -/
structure State where
  /-- The block (10_state.md R14). -/
  block : Block
  /-- The MODEL's own: the operations the host has issued and that are still to run, in the one total order of
  20_memory.md R48 (log entry 1). -/
  issues : List Issue
  /-- The MODEL's own: the response of the last operation (30_encoding.md R51); none before the first (log entry 3). -/
  response : Option Response
deriving DecidableEq, Repr

/-- The block after reset (10_state.md R31, 70_reset_and_hazards.md R116). The fields R31 leaves unspecified are Low or 0:
DESIGN CHOICE (log entry 10); unsafe, though no rule reads them before they are written. -/
def Block.resetFor (c : Config) : Block where
  encBuf := List.replicate c.cap .low
  encLen := 0#8
  encValid := false
  txState := .idle
  txCursor := 0#8
  txBuf := List.replicate c.cap .low
  txLen := 0#8
  rfPin := .low
  sActive := false
  sRemain := 0#3
  sDue := false
  sLast := 0
  sPkt := List.replicate c.pktMax 0#8
  sLen := 0#8

/-- The machine right after reset: nothing issued, no response yet (log entry 2). -/
def State.reset : State where
  block := Block.resetFor Config.hw
  issues := []
  response := none

end Sys2Proof.Machine
end

