-- ==== Sys2Proof/Machine/Operands.lean ====
section
/-! DEFINITION. The accesses to the three buffers (20_memory.md R36) and the deadline's clock arithmetic
(40_scheduler.md R69). -/

namespace Sys2Proof.Machine

/-- `buf[0..n-1] <- xs` for n = the length of `xs`, the other elements unchanged; a buffer keeps its size, so elements
past its end are not stored (log entry 12). -/
def writeBuf {α : Type} (buf xs : List α) : List α := xs.take buf.length ++ buf.drop xs.length

/-- ENC_BUF[0..ENC_LEN−1], the Waveform ENCODE built (10_state.md R16). -/
def Block.staged (b : Block) : List Level := b.encBuf.take b.encLen.toNat

/-- TX_BUF[0..TX_LEN−1], the active Waveform (10_state.md R20). -/
def Block.active (b : Block) : List Level := b.txBuf.take b.txLen.toNat

/-- S_PKT[0..S_LEN−1], the armed packet (10_state.md R26). -/
def Block.packet (b : Block) : List Byte := b.sPkt.take b.sLen.toNat

/-- TX_BUF[TX_CURSOR] (20_memory.md R43). Past the CAP levels, where no rule gives a level, it is a free value
(log entry 11). -/
def Block.cursorLevel (b : Block) : Level :=
  (b.txBuf[b.txCursor.toNat]?).getD (Config.strayLevel b.txCursor.toNat)

/-- `elapsed(t0, t1) = (t1 − t0) mod 2^CLK_W` (40_scheduler.md R69), computed exactly and then narrowed. -/
def elapsed (c : Config) (t0 t1 : Nat) : Nat := (((t1 : Int) - (t0 : Int)) % (2 ^ c.clkW : Int)).toNat

end Sys2Proof.Machine
end

