-- ==== Sys2Proof/Machine/Flags.lean ====
section
/-! DEFINITION. STATUS codes and RESULT layouts (30_encoding.md R55), and the two conditions that S_DUE and TX_STATE decide.
The block has no flags register (10_state.md R28). -/

namespace Sys2Proof.Machine

/-- The 8-bit STATUS code (30_encoding.md R55). -/
def Status.code : Status → BitVec 8
  | .ok => 0#8
  | .busy => 1#8
  | .overflow => 2#8
  | .invalid => 3#8
  | .refused => 7#8

/-- The block's answer to a refused word: STATUS = REFUSED, RESULT = 0 (30_encoding.md R56). -/
def Refusal.response (_ : Refusal) : Response := ⟨.refused, 0#8⟩

/-- The 2-bit encoding of TX_STATE (10_state.md R18). -/
def TxState.code : TxState → BitVec 2
  | .idle => 0#2
  | .sending => 1#2
  | .justCompleted => 2#2

/-- `working = (TX_STATE ≠ Idle)` (42_transmitter.md R92). -/
def TxState.working (t : TxState) : Bool := decide (t ≠ .idle)

/-- RESULT of TX_STATUS: `zext_8(TX_STATE << 1 | working)` (42_transmitter.md R92). -/
def txStatusResult (t : TxState) : BitVec 8 := (t.code ++ BitVec.ofBool t.working).setWidth 8

/-- RESULT of SCHED_STATUS: `zext_8(S_REMAIN << 1 | S_ACTIVE)` (40_scheduler.md R70). -/
def schedStatusResult (remain : BitVec 3) (active : Bool) : BitVec 8 := (remain ++ BitVec.ofBool active).setWidth 8

/-- RESULT of SCHED_TICK: bit 0 an attempt was made, bit 1 it was accepted, bit 2 the scheduler deactivated
(40_scheduler.md R66). -/
def schedTickResult (attempted accepted deactivated : Bool) : BitVec 8 :=
  (BitVec.ofBool deactivated ++ BitVec.ofBool accepted ++ BitVec.ofBool attempted).setWidth 8

/-- An attempt may fire: the deadline is cleared, or T_ATTEMPT has elapsed since S_LAST (40_scheduler.md R66, R69). -/
def Block.attemptDue (c : Config) (now : Nat) (b : Block) : Bool :=
  b.sDue || decide (c.tAttempt ≤ elapsed c b.sLast now)

end Sys2Proof.Machine
end

