-- ==== Sys2Proof/Machine/Waveform.lean ====
section
/-! DEFINITION. The framing of a Waveform (41_waveform_encoder.md R76, R77). -/

namespace Sys2Proof.Machine

/-- One bit as two levels: 1 is High, Low; 0 is Low, High (00_scope.md R11). -/
def expand : Bool → List Level
  | true => [.high, .low]
  | false => [.low, .high]

/-- One byte as 16 levels, most significant bit first (00_scope.md R11, 20_memory.md R38). -/
def expandByte (x : Byte) : List Level :=
  expand (x.getLsbD 7) ++ expand (x.getLsbD 6) ++ expand (x.getLsbD 5) ++ expand (x.getLsbD 4) ++
    expand (x.getLsbD 3) ++ expand (x.getLsbD 2) ++ expand (x.getLsbD 1) ++ expand (x.getLsbD 0)

/-- Bytes in ascending index order (20_memory.md R39). -/
def expandBytes (d : List Byte) : List Level := d.flatMap expandByte

/-- The preamble: WAKEUP, W[0] first (20_memory.md R40). -/
def preamble (c : Config) : List Level := expandBytes c.wakeup.toList

/-- The header: HDR_HIGH High levels, then HDR_LOW Low levels. -/
def header (c : Config) : List Level := List.replicate c.hdrHigh .high ++ List.replicate c.hdrLow .low

/-- The start marker: one bit 1, expanded. -/
def startMarker : List Level := expand true

/-- The stop field: STOP_LOW Low levels. -/
def stopField (c : Config) : List Level := List.replicate c.stopLow .low

/-- The Waveform of a command (41_waveform_encoder.md R76). -/
def waveform (c : Config) (d : List Byte) : List Level :=
  preamble c ++ header c ++ startMarker ++ expandBytes d ++ stopField c

/-- The level count of an L-byte command: `4*8*2 + 10 + 2 + L*8*2 + 5` at this hardware's header and stop
(41_waveform_encoder.md R77). -/
def levelCount (c : Config) (len : Nat) : Nat :=
  4 * 8 * 2 + (c.hdrHigh + c.hdrLow) + 2 + len * 8 * 2 + c.stopLow

end Sys2Proof.Machine
end

