-- ==== Sys2Proof/Machine/Ops.lean ====
section
/-! DEFINITION. The operations that more than one instruction performs: ENCODE and TX_START are also the two halves of a
scheduler attempt (40_scheduler.md R68). The block takes no exception and returns from none (60_exceptions.md R98, R104,
R105): interrupt entry and return change nothing but by TX_TICK's own rule. -/

namespace Sys2Proof.Machine

/-- ENCODE (41_waveform_encoder.md R75): OVERFLOW clears ENC_VALID and writes nothing else; otherwise the whole Waveform
is written in one step. -/
def encodeOp (c : Config) (d : List Byte) (b : Block) : Block × Response :=
  if c.cap < levelCount c d.length then
    ({ b with encValid := false }, ⟨.overflow, 0#8⟩)
  else
    ({ b with
        encBuf := writeBuf b.encBuf (waveform c d)
        encLen := BitVec.ofNat 8 (levelCount c d.length)
        encValid := true },
      ⟨.ok, BitVec.ofNat 8 (levelCount c d.length)⟩)

/-- TX_START (42_transmitter.md R87): BUSY is tested before INVALID; an accepted start copies the staged Waveform and
consumes it. -/
def txStartOp (b : Block) : Block × Response :=
  if b.txState ≠ .idle then (b, ⟨.busy, 0#8⟩)
  else if b.encValid = false then (b, ⟨.invalid, 0#8⟩)
  else
    ({ b with
        txBuf := writeBuf b.txBuf b.staged
        txLen := b.encLen
        txCursor := 0#8
        txState := .sending
        encValid := false },
      ⟨.ok, 0#8⟩)

/-- The operation ends: the block becomes the one it leaves, and its response stands on the port (30_encoding.md R51). -/
def State.finish (s : State) (r : Block × Response) : State := { s with block := r.1, response := some r.2 }

end Sys2Proof.Machine
end

