-- ==== Sys2Proof/Machine/Encoder.lean ====
section
/-! DEFINITION. The waveform encoder's instruction: ENCODE. -/

namespace Sys2Proof.Machine

/-- ENCODE (41_waveform_encoder.md R75). -/
def execEncode (data : List Byte) (s : State) : Host.Outcome State Fault Refusal :=
  .next (s.finish (encodeOp Config.hw data s.block))

end Sys2Proof.Machine
end

