-- ==== Sys2Proof/Machine/Scheduler.lean ====
section
/-! DEFINITION. The retransmission scheduler's instructions: SCHED_ARM, SCHED_CANCEL, SCHED_TICK and SCHED_STATUS. -/

namespace Sys2Proof.Machine

/-- SCHED_ARM's effect on the block (40_scheduler.md R63), the same whether or not the scheduler is active (R64). -/
def schedArmOp (c : Config) (d : List Byte) (b : Block) : Block :=
  { b with
    sPkt := writeBuf b.sPkt d
    sLen := BitVec.ofNat 8 d.length
    sRemain := BitVec.ofNat 3 c.nAttempts
    sDue := true
    sActive := true }

/-- The last part of an attempt: an accepted start is counted and resets the deadline; a rejected one changes nothing
else (40_scheduler.md R68). -/
def closeAttempt (now : Nat) (t : Block × Response) : Block × Response :=
  if t.2.status = .ok then
    ({ t.1 with sRemain := t.1.sRemain - 1#3, sLast := now, sDue := false }, ⟨.ok, schedTickResult true true false⟩)
  else
    (t.1, ⟨.ok, schedTickResult true false false⟩)

/-- An attempt (40_scheduler.md R68): encode the packet afresh; if that succeeded, start the transmitter. -/
def attemptOp (c : Config) (now : Nat) (b : Block) : Block × Response :=
  if (encodeOp c b.packet b).2.status = .ok then
    closeAttempt now (txStartOp (encodeOp c b.packet b).1)
  else
    closeAttempt now (encodeOp c b.packet b)

/-- SCHED_TICK (40_scheduler.md R66), its tests in the rule's order: inactive; no attempts remain (R67); the deadline. -/
def schedTickOp (c : Config) (now : Nat) (b : Block) : Block × Response :=
  if b.sActive = false then (b, ⟨.ok, schedTickResult false false false⟩)
  else if b.sRemain = 0#3 then
    if b.txState = .idle then ({ b with sActive := false }, ⟨.ok, schedTickResult false false true⟩)
    else (b, ⟨.ok, schedTickResult false false false⟩)
  else if b.attemptDue c now = true then attemptOp c now b
  else (b, ⟨.ok, schedTickResult false false false⟩)

/-- SCHED_ARM (40_scheduler.md R63, R64). -/
def execSchedArm (data : List Byte) (s : State) : Host.Outcome State Fault Refusal :=
  .next (s.finish (schedArmOp Config.hw data s.block, ⟨.ok, 0#8⟩))

/-- SCHED_CANCEL (40_scheduler.md R65). -/
def execSchedCancel (s : State) : Host.Outcome State Fault Refusal :=
  .next (s.finish ({ s.block with sActive := false, sRemain := 0#3 }, ⟨.ok, 0#8⟩))

/-- SCHED_TICK (40_scheduler.md R66). -/
def execSchedTick (now : Nat) (s : State) : Host.Outcome State Fault Refusal :=
  .next (s.finish (schedTickOp Config.hw now s.block))

/-- SCHED_STATUS (40_scheduler.md R70). -/
def execSchedStatus (s : State) : Host.Outcome State Fault Refusal :=
  .next (s.finish (s.block, ⟨.ok, schedStatusResult s.block.sRemain s.block.sActive⟩))

end Sys2Proof.Machine
end

