-- ==== Sys2Proof/Machine/Transmitter.lean ====
section
/-! DEFINITION. The bit-bang transmitter's instructions: TX_START, TX_STATUS, TX_TICK and PIN_CLEAR. -/

namespace Sys2Proof.Machine

/-- TX_TICK's effect on the block (42_transmitter.md R88 to R91). The tick that outputs the last level enters
JustCompleted; TX_BUF and TX_LEN are then released, which writes nothing (10_state.md R14, R20). -/
def txTickOp (b : Block) : Block :=
  match b.txState with
  | .justCompleted => { b with txState := .idle }
  | .sending =>
    if b.txCursor + 1#8 = b.txLen then
      { b with rfPin := b.cursorLevel, txCursor := 0#8, txState := .justCompleted }
    else
      { b with rfPin := b.cursorLevel, txCursor := b.txCursor + 1#8 }
  | .idle => b

/-- TX_START (42_transmitter.md R87). -/
def execTxStart (s : State) : Host.Outcome State Fault Refusal :=
  .next (s.finish (txStartOp s.block))

/-- TX_STATUS (42_transmitter.md R92). -/
def execTxStatus (s : State) : Host.Outcome State Fault Refusal :=
  .next (s.finish (s.block, ⟨.ok, txStatusResult s.block.txState⟩))

/-- TX_TICK (42_transmitter.md R88). -/
def execTxTick (s : State) : Host.Outcome State Fault Refusal :=
  .next (s.finish (txTickOp s.block, ⟨.ok, 0#8⟩))

/-- PIN_CLEAR (42_transmitter.md R96). -/
def execPinClear (s : State) : Host.Outcome State Fault Refusal :=
  .next (s.finish ({ s.block with rfPin := .low }, ⟨.ok, 0#8⟩))

end Sys2Proof.Machine
end

