-- ==== Sys2Proof/Machine/Dispatch.lean ====
section
/-! DEFINITION. One arm per operation of the opcode table. -/

namespace Sys2Proof.Machine

/-- The meaning of one operation. -/
def exec (i : Instr) (s : State) : Host.Outcome State Fault Refusal :=
  match i with
  | .encode data => Sys2Proof.Machine.execEncode data s
  | .txStart => Sys2Proof.Machine.execTxStart s
  | .txStatus => Sys2Proof.Machine.execTxStatus s
  | .txTick => Sys2Proof.Machine.execTxTick s
  | .schedArm data => Sys2Proof.Machine.execSchedArm data s
  | .schedCancel => Sys2Proof.Machine.execSchedCancel s
  | .schedTick now => Sys2Proof.Machine.execSchedTick now s
  | .schedStatus => Sys2Proof.Machine.execSchedStatus s
  | .pinClear => Sys2Proof.Machine.execPinClear s

end Sys2Proof.Machine
end

