-- ==== Sys2Proof/Machine/Step.lean ====
section
/-! DEFINITION. One step: the next issue of the total order is decoded and runs as one atomic operation
(20_memory.md R48, 30_encoding.md R51). -/

namespace Sys2Proof.Machine

/-- One step. With nothing issued the block keeps its state (10_state.md R14; log entry 4); a word the decoder refuses is
a refusal (30_encoding.md R56). -/
def step (s : State) : Host.Outcome State Fault Refusal :=
  match s.issues with
  | [] => .next s
  | p :: rest =>
    match decode p with
    | .error e => .refused (.commandRefused e p.cmd p.ctx)
    | .ok i => exec i { s with issues := rest }

/-- `s` with the word issued next, before all that is already issued (log entry 2). -/
def State.withFetchWord (s : State) (nbits w : Nat) : State :=
  { s with issues := issueOfWord nbits w :: s.issues }

end Sys2Proof.Machine
end

