-- ==== Sys2Proof/Safety.lean ====
section
/-! DEFINITION. What counts as a sound state and a run, in the terms the statements use. -/

namespace Sys2Proof

/-- The decoder accepts the issue. -/
def Issue.accepted (p : Issue) : Bool :=
  match decode p with
  | .ok _ => true
  | .error _ => false

/-- The issue is a TX_TICK. -/
def Issue.isTick (p : Issue) : Bool := decide (decode p = .ok .txTick)

/-- The issue is a SCHED_ARM. -/
def Issue.isArm (p : Issue) : Bool :=
  match decode p with
  | .ok (.schedArm _) => true
  | _ => false

/-- An accepted issue that is neither a SCHED_ARM nor a SCHED_CANCEL. -/
def Issue.keepsArmed (p : Issue) : Bool := p.accepted && !p.isArm && decide (decode p ≠ .ok .schedCancel)

/-- The timer's issue: TX_TICK from the interrupt context (60_exceptions.md R102). -/
def Issue.tick : Issue where
  ctx := .interrupt
  cmd := 0x0004
  data := dataPort []
  clock := 0

/-- The foreground's SCHED_TICK when the monotonic clock has counted `time` units (60_exceptions.md R108). -/
def Issue.schedTickAt (time : Nat) : Issue where
  ctx := .foreground
  cmd := 0x0007
  data := dataPort []
  clock := time

end Sys2Proof

namespace Sys2Proof.Machine

/-- The three buffers have their sizes (20_memory.md R36). -/
structure Block.Shape (c : Config) (b : Block) : Prop where
  encBuf : b.encBuf.length = c.cap
  txBuf : b.txBuf.length = c.cap
  sPkt : b.sPkt.length = c.pktMax

/-- A sound block: the legal values of 10_state.md R14 and the invariants of R16, R19, R20, R24, R27 and
42_transmitter.md R95. -/
structure Block.Inv (c : Config) (b : Block) : Prop where
  /-- The buffers have their sizes. -/
  shape : b.Shape c
  /-- ENC_LEN is 0..CAP (R14). -/
  encLen_le : b.encLen.toNat ≤ c.cap
  /-- TX_LEN is 0..CAP (R14). -/
  txLen_le : b.txLen.toNat ≤ c.cap
  /-- While ENC_VALID = 1 the staged levels are a Waveform (R16). -/
  staged : b.encValid = true → ∃ d : List Byte, b.staged = waveform c d
  /-- While Sending the active levels are a Waveform (R20). -/
  active : b.txState = .sending → ∃ d : List Byte, b.active = waveform c d
  /-- While Sending the cursor stands inside the Waveform (R19). -/
  cursor_lt : b.txState = .sending → b.txCursor.toNat < b.txLen.toNat
  /-- While Idle or JustCompleted the cursor is 0 (R19). -/
  cursor_rest : b.txState ≠ .sending → b.txCursor = 0#8
  /-- Outside Sending the pin is Low (R95). -/
  pin_rest : b.txState ≠ .sending → b.rfPin = .low
  /-- S_REMAIN is 0..N_ATTEMPTS (R24). -/
  remain_le : b.sRemain.toNat ≤ c.nAttempts
  /-- When S_ACTIVE = 0, S_REMAIN = 0 (R27). -/
  inactive : b.sActive = false → b.sRemain = 0#3
  /-- S_LAST is a CLK_W-bit value (R14). -/
  last_lt : b.sLast < 2 ^ c.clkW

/-- A sound state of this hardware. -/
def State.Inv (s : State) : Prop := s.block.Inv Config.hw

/-- `k` steps, stopping at the first refusal. -/
def run : Nat → State → Host.Outcome State Fault Refusal
  | 0, s => .next s
  | k + 1, s =>
    match step s with
    | .next t => run k t
    | .fault r => .fault r
    | .refused r => .refused r

/-- How many of the issues are TX_TICKs. -/
def tickCount (ps : List Issue) : Nat := ps.countP Issue.isTick

/-- A SCHED_TICK at `time`, then the ticks that carry an `n`-level Waveform out and the transmitter back to Idle. -/
def attemptIssues (time n : Nat) : List Issue := Issue.schedTickAt time :: List.replicate (n + 1) Issue.tick

/-- The issues of a schedule: for each slot, a SCHED_TICK at its time and then what is issued until the next slot's. -/
def scheduleIssues (slots : List (Nat × List Issue)) : List Issue :=
  slots.flatMap fun x => Issue.schedTickAt x.1 :: x.2

/-- The step from `s` to `t` is an accepted attempt: a SCHED_TICK whose RESULT has bits 0 and 1 set
(40_scheduler.md R66). -/
def acceptedAttempt (s t : State) : Bool :=
  match s.issues with
  | [] => false
  | p :: _ =>
    match decode p with
    | .ok (.schedTick _) => decide (t.response = some ⟨.ok, 3#8⟩)
    | _ => false

/-- How many of the first `k` steps from `s` are accepted attempts. -/
def acceptedAttempts : Nat → State → Nat
  | 0, _ => 0
  | k + 1, s =>
    match step s with
    | .next t => (if acceptedAttempt s t then 1 else 0) + acceptedAttempts k t
    | .fault _ => 0
    | .refused _ => 0

/-- `w` holds the level `v` on the indices `a..b` and on neither neighbour of them: a maximal run of equal levels
(41_waveform_encoder.md R84). -/
def IsRun (w : List Level) (v : Level) (a b : Nat) : Prop :=
  a ≤ b ∧ b < w.length ∧ (∀ i, a ≤ i → i ≤ b → w[i]? = some v) ∧
    (∀ i, i + 1 = a → w[i]? ≠ some v) ∧ w[b + 1]? ≠ some v

/-- The level of a bit, and of its complement (00_scope.md R11). -/
def levelOfBit (b : Bool) : Level := if b then .high else .low

/-- The block holds the reset value in every field to which 10_state.md R31 gives one. -/
def Block.SpecifiedReset (b : Block) : Prop :=
  b.encValid = false ∧ b.txState = .idle ∧ b.txCursor = 0#8 ∧ b.rfPin = .low ∧ b.sActive = false ∧ b.sRemain = 0#3 ∧
    b.sDue = false

/-- Two blocks agree on every field that a rule can read as they stand: on the staged Waveform only while ENC_VALID = 1
(10_state.md R17), on the active one only while Sending (R20), on the packet only while active (40_scheduler.md R65), on
S_LAST only while active with the deadline not cleared (10_state.md R25). A Waveform that can be read is not empty and
stands inside its buffer, the cursor inside it (R14, R19). -/
structure Block.Alike (a b : Block) : Prop where
  encValid : b.encValid = a.encValid
  txState : b.txState = a.txState
  txCursor : b.txCursor = a.txCursor
  rfPin : b.rfPin = a.rfPin
  sActive : b.sActive = a.sActive
  sRemain : b.sRemain = a.sRemain
  sDue : b.sDue = a.sDue
  staged : a.encValid = true → b.encLen = a.encLen ∧ b.staged = a.staged ∧ 0 < a.encLen.toNat ∧
    a.encLen.toNat ≤ a.encBuf.length
  sending : a.txState = .sending →
    b.txLen = a.txLen ∧ b.active = a.active ∧ a.txCursor.toNat < a.txLen.toNat ∧ a.txLen.toNat ≤ a.txBuf.length
  packet : a.sActive = true → b.sLen = a.sLen ∧ b.packet = a.packet
  last : a.sActive = true → a.sDue = false → b.sLast = a.sLast

/-- What the outside can tell of two outcomes is the same: the same refusal, or the same response and RF_PIN
(60_exceptions.md R113). -/
def SameObservation : Host.Outcome State Fault Refusal → Host.Outcome State Fault Refusal → Prop
  | .next s, .next t => s.response = t.response ∧ s.block.rfPin = t.block.rfPin
  | .refused r, .refused q => r = q
  | .fault _, _ => False
  | _, _ => False

end Sys2Proof.Machine
end

