-- ==== Sys2Proof/Laws/State.lean ====
section
/-! SUPPORT. One lemma per field per update: `State.finish`, and each shared operation's frame, field by field. -/

namespace Sys2Proof.Machine

@[simp] theorem finish_block (s : State) (r : Block × Response) : (s.finish r).block = r.1 := rfl
@[simp] theorem finish_issues (s : State) (r : Block × Response) : (s.finish r).issues = s.issues := rfl
@[simp] theorem finish_response (s : State) (r : Block × Response) : (s.finish r).response = some r.2 := rfl

/-! ENCODE writes ENC fields only. -/

section
variable (c : Config) (d : List Byte) (b : Block)
@[simp] theorem encodeOp_txState : (encodeOp c d b).1.txState = b.txState := by unfold encodeOp; split <;> rfl
@[simp] theorem encodeOp_txCursor : (encodeOp c d b).1.txCursor = b.txCursor := by unfold encodeOp; split <;> rfl
@[simp] theorem encodeOp_txBuf : (encodeOp c d b).1.txBuf = b.txBuf := by unfold encodeOp; split <;> rfl
@[simp] theorem encodeOp_txLen : (encodeOp c d b).1.txLen = b.txLen := by unfold encodeOp; split <;> rfl
@[simp] theorem encodeOp_rfPin : (encodeOp c d b).1.rfPin = b.rfPin := by unfold encodeOp; split <;> rfl
@[simp] theorem encodeOp_sActive : (encodeOp c d b).1.sActive = b.sActive := by unfold encodeOp; split <;> rfl
@[simp] theorem encodeOp_sRemain : (encodeOp c d b).1.sRemain = b.sRemain := by unfold encodeOp; split <;> rfl
@[simp] theorem encodeOp_sDue : (encodeOp c d b).1.sDue = b.sDue := by unfold encodeOp; split <;> rfl
@[simp] theorem encodeOp_sLast : (encodeOp c d b).1.sLast = b.sLast := by unfold encodeOp; split <;> rfl
@[simp] theorem encodeOp_sPkt : (encodeOp c d b).1.sPkt = b.sPkt := by unfold encodeOp; split <;> rfl
@[simp] theorem encodeOp_sLen : (encodeOp c d b).1.sLen = b.sLen := by unfold encodeOp; split <;> rfl
end

/-! TX_START writes TX_BUF, TX_LEN, TX_CURSOR, TX_STATE and ENC_VALID only. -/

section
variable (b : Block)
@[simp] theorem txStartOp_encBuf : (txStartOp b).1.encBuf = b.encBuf := by unfold txStartOp; split <;> (try split) <;> rfl
@[simp] theorem txStartOp_encLen : (txStartOp b).1.encLen = b.encLen := by unfold txStartOp; split <;> (try split) <;> rfl
@[simp] theorem txStartOp_rfPin : (txStartOp b).1.rfPin = b.rfPin := by unfold txStartOp; split <;> (try split) <;> rfl
@[simp] theorem txStartOp_sActive : (txStartOp b).1.sActive = b.sActive := by unfold txStartOp; split <;> (try split) <;> rfl
@[simp] theorem txStartOp_sRemain : (txStartOp b).1.sRemain = b.sRemain := by unfold txStartOp; split <;> (try split) <;> rfl
@[simp] theorem txStartOp_sDue : (txStartOp b).1.sDue = b.sDue := by unfold txStartOp; split <;> (try split) <;> rfl
@[simp] theorem txStartOp_sLast : (txStartOp b).1.sLast = b.sLast := by unfold txStartOp; split <;> (try split) <;> rfl
@[simp] theorem txStartOp_sPkt : (txStartOp b).1.sPkt = b.sPkt := by unfold txStartOp; split <;> (try split) <;> rfl
@[simp] theorem txStartOp_sLen : (txStartOp b).1.sLen = b.sLen := by unfold txStartOp; split <;> (try split) <;> rfl
end

/-! TX_TICK writes TX_STATE, TX_CURSOR and RF_PIN only. -/

section
variable (b : Block)
@[simp] theorem txTickOp_encBuf : (txTickOp b).encBuf = b.encBuf := by unfold txTickOp; split <;> (try split) <;> rfl
@[simp] theorem txTickOp_encLen : (txTickOp b).encLen = b.encLen := by unfold txTickOp; split <;> (try split) <;> rfl
@[simp] theorem txTickOp_encValid : (txTickOp b).encValid = b.encValid := by unfold txTickOp; split <;> (try split) <;> rfl
@[simp] theorem txTickOp_txBuf : (txTickOp b).txBuf = b.txBuf := by unfold txTickOp; split <;> (try split) <;> rfl
@[simp] theorem txTickOp_txLen : (txTickOp b).txLen = b.txLen := by unfold txTickOp; split <;> (try split) <;> rfl
@[simp] theorem txTickOp_sActive : (txTickOp b).sActive = b.sActive := by unfold txTickOp; split <;> (try split) <;> rfl
@[simp] theorem txTickOp_sRemain : (txTickOp b).sRemain = b.sRemain := by unfold txTickOp; split <;> (try split) <;> rfl
@[simp] theorem txTickOp_sDue : (txTickOp b).sDue = b.sDue := by unfold txTickOp; split <;> (try split) <;> rfl
@[simp] theorem txTickOp_sLast : (txTickOp b).sLast = b.sLast := by unfold txTickOp; split <;> (try split) <;> rfl
@[simp] theorem txTickOp_sPkt : (txTickOp b).sPkt = b.sPkt := by unfold txTickOp; split <;> (try split) <;> rfl
@[simp] theorem txTickOp_sLen : (txTickOp b).sLen = b.sLen := by unfold txTickOp; split <;> (try split) <;> rfl
end

/-! SCHED_ARM writes S_PKT, S_LEN, S_REMAIN, S_DUE and S_ACTIVE only. -/

section
variable (c : Config) (d : List Byte) (b : Block)
@[simp] theorem schedArmOp_encBuf : (schedArmOp c d b).encBuf = b.encBuf := rfl
@[simp] theorem schedArmOp_encLen : (schedArmOp c d b).encLen = b.encLen := rfl
@[simp] theorem schedArmOp_encValid : (schedArmOp c d b).encValid = b.encValid := rfl
@[simp] theorem schedArmOp_txState : (schedArmOp c d b).txState = b.txState := rfl
@[simp] theorem schedArmOp_txCursor : (schedArmOp c d b).txCursor = b.txCursor := rfl
@[simp] theorem schedArmOp_txBuf : (schedArmOp c d b).txBuf = b.txBuf := rfl
@[simp] theorem schedArmOp_txLen : (schedArmOp c d b).txLen = b.txLen := rfl
@[simp] theorem schedArmOp_rfPin : (schedArmOp c d b).rfPin = b.rfPin := rfl
@[simp] theorem schedArmOp_sLast : (schedArmOp c d b).sLast = b.sLast := rfl
end

/-! An attempt's last part writes S_REMAIN, S_LAST and S_DUE only. -/

section
variable (now : Nat) (t : Block × Response)
@[simp] theorem closeAttempt_encBuf : (closeAttempt now t).1.encBuf = t.1.encBuf := by unfold closeAttempt; split <;> rfl
@[simp] theorem closeAttempt_encLen : (closeAttempt now t).1.encLen = t.1.encLen := by unfold closeAttempt; split <;> rfl
@[simp] theorem closeAttempt_encValid : (closeAttempt now t).1.encValid = t.1.encValid := by
  unfold closeAttempt; split <;> rfl
@[simp] theorem closeAttempt_txState : (closeAttempt now t).1.txState = t.1.txState := by
  unfold closeAttempt; split <;> rfl
@[simp] theorem closeAttempt_txCursor : (closeAttempt now t).1.txCursor = t.1.txCursor := by
  unfold closeAttempt; split <;> rfl
@[simp] theorem closeAttempt_txBuf : (closeAttempt now t).1.txBuf = t.1.txBuf := by unfold closeAttempt; split <;> rfl
@[simp] theorem closeAttempt_txLen : (closeAttempt now t).1.txLen = t.1.txLen := by unfold closeAttempt; split <;> rfl
@[simp] theorem closeAttempt_rfPin : (closeAttempt now t).1.rfPin = t.1.rfPin := by unfold closeAttempt; split <;> rfl
@[simp] theorem closeAttempt_sActive : (closeAttempt now t).1.sActive = t.1.sActive := by
  unfold closeAttempt; split <;> rfl
@[simp] theorem closeAttempt_sPkt : (closeAttempt now t).1.sPkt = t.1.sPkt := by unfold closeAttempt; split <;> rfl
@[simp] theorem closeAttempt_sLen : (closeAttempt now t).1.sLen = t.1.sLen := by unfold closeAttempt; split <;> rfl
end

end Sys2Proof.Machine
end

