-- ==== Sys2Proof/Laws/Waveform.lean ====
section
/-! SUPPORT. Lengths of a Waveform's fields, and the buffer write. -/

namespace Sys2Proof.Machine

@[simp] theorem writeBuf_length {α : Type} (buf xs : List α) : (writeBuf buf xs).length = buf.length := by
  simp [writeBuf]; omega

/-- A write that fits stands at the front of the buffer. -/
theorem writeBuf_take {α : Type} (buf xs : List α) (h : xs.length ≤ buf.length) :
    (writeBuf buf xs).take xs.length = xs := by
  simp [writeBuf, List.take_of_length_le h]

/-- A write that fits leaves the elements past it. -/
theorem writeBuf_drop {α : Type} (buf xs : List α) (h : xs.length ≤ buf.length) :
    (writeBuf buf xs).drop xs.length = buf.drop xs.length := by
  simp [writeBuf, List.take_of_length_le h]

/-- A write that fits, as one list. -/
theorem writeBuf_eq {α : Type} (buf xs : List α) (h : xs.length ≤ buf.length) :
    writeBuf buf xs = xs ++ buf.drop xs.length := by
  simp [writeBuf, List.take_of_length_le h]

@[simp] theorem expand_length (b : Bool) : (expand b).length = 2 := by cases b <;> rfl

@[simp] theorem expandByte_length (x : Byte) : (expandByte x).length = 16 := by simp [expandByte]

@[simp] theorem expandBytes_length (d : List Byte) : (expandBytes d).length = 16 * d.length := by
  induction d with
  | nil => rfl
  | cons x xs ih =>
    have : expandBytes (x :: xs) = expandByte x ++ expandBytes xs := rfl
    simp [this, ih]; omega

/-- The level count of R77 is the Waveform's length. -/
theorem waveform_length (c : Config) (d : List Byte) : (waveform c d).length = levelCount c d.length := by
  simp [waveform, preamble, header, startMarker, stopField, levelCount]; omega

@[simp] theorem levelCount_hw (n : Nat) : levelCount Config.hw n = 81 + 16 * n := by
  simp only [levelCount, Config.hw]; omega

@[simp] theorem hw_cap : Config.hw.cap = 224 := rfl
@[simp] theorem hw_pktMax : Config.hw.pktMax = 255 := rfl
@[simp] theorem hw_nAttempts : Config.hw.nAttempts = 5 := rfl
@[simp] theorem hw_tAttempt : Config.hw.tAttempt = 100000 := rfl

/-- The last level of every Waveform is Low when the stop field is not empty (41_waveform_encoder.md R83). -/
theorem waveform_getLast (c : Config) (d : List Byte) (h : 0 < c.stopLow) :
    (waveform c d)[levelCount c d.length - 1]? = some .low := by
  rw [← waveform_length, ← List.getLast?_eq_getElem?]
  have hs : stopField c ≠ [] := by
    intro he
    have := congrArg List.length he
    simp [stopField] at this
    omega
  rw [waveform, List.getLast?_append_of_ne_nil _ hs, stopField, List.getLast?_replicate]
  simp; omega

/-- This hardware's configuration is well-formed. -/
theorem hw_wellFormed : Config.hw.WellFormed := by
  refine ⟨by decide, by decide, by decide, ?_, by decide⟩
  have h : (2 : Nat) ^ 17 ≤ 2 ^ (17 + Config.clkWidthAbove17) := Nat.pow_le_pow_right (by decide) (by omega)
  show 100000 < 2 ^ (17 + Config.clkWidthAbove17)
  omega

end Sys2Proof.Machine
end

