-- ==== Sys2Proof/Laws/Ops.lean ====
section
/-! SUPPORT. What each shared operation can do, said once. -/

namespace Sys2Proof.Machine

/-- ENCODE overflows, or stages the whole Waveform. -/
theorem encodeOp_cases (c : Config) (d : List Byte) (b : Block) :
    (c.cap < levelCount c d.length ∧ encodeOp c d b = ({ b with encValid := false }, ⟨.overflow, 0#8⟩)) ∨
    (levelCount c d.length ≤ c.cap ∧ encodeOp c d b =
      ({ b with
          encBuf := writeBuf b.encBuf (waveform c d)
          encLen := BitVec.ofNat 8 (levelCount c d.length)
          encValid := true }, ⟨.ok, BitVec.ofNat 8 (levelCount c d.length)⟩)) := by
  unfold encodeOp
  split
  · exact .inl ⟨‹_›, rfl⟩
  · exact .inr ⟨by omega, rfl⟩

/-- TX_START is busy, finds no Waveform, or is accepted. -/
theorem txStartOp_cases (b : Block) :
    (b.txState ≠ .idle ∧ txStartOp b = (b, ⟨.busy, 0#8⟩)) ∨
    (b.txState = .idle ∧ b.encValid = false ∧ txStartOp b = (b, ⟨.invalid, 0#8⟩)) ∨
    (b.txState = .idle ∧ b.encValid = true ∧ txStartOp b =
      ({ b with
          txBuf := writeBuf b.txBuf b.staged
          txLen := b.encLen
          txCursor := 0#8
          txState := .sending
          encValid := false }, ⟨.ok, 0#8⟩)) := by
  unfold txStartOp
  by_cases h : b.txState = .idle
  · cases hv : b.encValid
    · exact .inr (.inl ⟨h, rfl, by simp [h]⟩)
    · exact .inr (.inr ⟨h, rfl, by simp [h]⟩)
  · exact .inl ⟨h, by simp [h]⟩

/-- TX_TICK does nothing, leaves JustCompleted, or outputs a level, the last one or another. -/
theorem txTickOp_cases (b : Block) :
    (b.txState = .idle ∧ txTickOp b = b) ∨
    (b.txState = .justCompleted ∧ txTickOp b = { b with txState := .idle }) ∨
    (b.txState = .sending ∧ b.txCursor + 1#8 = b.txLen ∧
      txTickOp b = { b with rfPin := b.cursorLevel, txCursor := 0#8, txState := .justCompleted }) ∨
    (b.txState = .sending ∧ b.txCursor + 1#8 ≠ b.txLen ∧
      txTickOp b = { b with rfPin := b.cursorLevel, txCursor := b.txCursor + 1#8 }) := by
  unfold txTickOp
  cases h : b.txState with
  | idle => exact .inl ⟨rfl, rfl⟩
  | justCompleted => exact .inr (.inl ⟨rfl, rfl⟩)
  | sending =>
    by_cases hc : b.txCursor + 1#8 = b.txLen
    · exact .inr (.inr (.inl ⟨rfl, hc, by simp [hc]⟩))
    · exact .inr (.inr (.inr ⟨rfl, hc, by simp [hc]⟩))

/-- An attempt overflows, is busy, or is accepted; it never finds the Waveform invalid. -/
theorem attemptOp_cases (c : Config) (now : Nat) (b : Block) :
    (c.cap < levelCount c b.packet.length ∧ attemptOp c now b = ({ b with encValid := false }, ⟨.ok, 1#8⟩)) ∨
    (levelCount c b.packet.length ≤ c.cap ∧ b.txState ≠ .idle ∧ attemptOp c now b =
      ({ b with
          encBuf := writeBuf b.encBuf (waveform c b.packet)
          encLen := BitVec.ofNat 8 (levelCount c b.packet.length)
          encValid := true }, ⟨.ok, 1#8⟩)) ∨
    (levelCount c b.packet.length ≤ c.cap ∧ b.txState = .idle ∧ attemptOp c now b =
      ({ b with
          encBuf := writeBuf b.encBuf (waveform c b.packet)
          encLen := BitVec.ofNat 8 (levelCount c b.packet.length)
          encValid := false
          txBuf := writeBuf b.txBuf ((writeBuf b.encBuf (waveform c b.packet)).take
            (BitVec.ofNat 8 (levelCount c b.packet.length)).toNat)
          txLen := BitVec.ofNat 8 (levelCount c b.packet.length)
          txCursor := 0#8
          txState := .sending
          sRemain := b.sRemain - 1#3
          sLast := now
          sDue := false }, ⟨.ok, 3#8⟩)) := by
  have h1 : schedTickResult true false false = 1#8 := by decide
  have h3 : schedTickResult true true false = 3#8 := by decide
  unfold attemptOp
  rcases encodeOp_cases c b.packet b with ⟨h, he⟩ | ⟨h, he⟩
  · exact .inl ⟨h, by simp [he, closeAttempt, h1]⟩
  · right
    by_cases hi : b.txState = .idle
    · exact .inr ⟨h, hi, by simp [he, closeAttempt, txStartOp, hi, h3, Block.staged]⟩
    · exact .inl ⟨h, hi, by simp [he, closeAttempt, txStartOp, hi, h1]⟩

/-- SCHED_TICK does nothing, deactivates, or attempts. -/
theorem schedTickOp_cases (c : Config) (now : Nat) (b : Block) :
    (b.sActive = false ∧ schedTickOp c now b = (b, ⟨.ok, 0#8⟩)) ∨
    (b.sActive = true ∧ b.sRemain = 0#3 ∧ b.txState = .idle ∧
      schedTickOp c now b = ({ b with sActive := false }, ⟨.ok, 4#8⟩)) ∨
    (b.sActive = true ∧ b.sRemain = 0#3 ∧ b.txState ≠ .idle ∧ schedTickOp c now b = (b, ⟨.ok, 0#8⟩)) ∨
    (b.sActive = true ∧ b.sRemain ≠ 0#3 ∧ b.attemptDue c now = false ∧ schedTickOp c now b = (b, ⟨.ok, 0#8⟩)) ∨
    (b.sActive = true ∧ b.sRemain ≠ 0#3 ∧ b.attemptDue c now = true ∧ schedTickOp c now b = attemptOp c now b) := by
  have h0 : schedTickResult false false false = 0#8 := by decide
  have h4 : schedTickResult false false true = 4#8 := by decide
  unfold schedTickOp
  cases ha : b.sActive
  · exact .inl ⟨rfl, by simp [h0]⟩
  · by_cases hr : b.sRemain = 0#3
    · by_cases hi : b.txState = .idle
      · exact .inr (.inl ⟨rfl, hr, hi, by simp [hr, hi, h4]⟩)
      · exact .inr (.inr (.inl ⟨rfl, hr, hi, by simp [hr, hi, h0]⟩))
    · cases hd : b.attemptDue c now
      · exact .inr (.inr (.inr (.inl ⟨rfl, hr, rfl, by simp [hr, h0]⟩)))
      · exact .inr (.inr (.inr (.inr ⟨rfl, hr, rfl, by simp [hr]⟩)))

end Sys2Proof.Machine
end

