-- ==== Sys2Proof/Laws/Step.lean ====
section
/-! SUPPORT. What `exec`, `step` and `run` can do, said once. -/

namespace Sys2Proof.Machine

/-! Each operation answers a next state. -/

theorem exec_encode (d : List Byte) (s : State) :
    exec (.encode d) s = .next (s.finish (encodeOp Config.hw d s.block)) := rfl
theorem exec_txStart (s : State) : exec .txStart s = .next (s.finish (txStartOp s.block)) := rfl
theorem exec_txStatus (s : State) :
    exec .txStatus s = .next (s.finish (s.block, ⟨.ok, txStatusResult s.block.txState⟩)) := rfl
theorem exec_txTick (s : State) : exec .txTick s = .next (s.finish (txTickOp s.block, ⟨.ok, 0#8⟩)) := rfl
theorem exec_schedArm (d : List Byte) (s : State) :
    exec (.schedArm d) s = .next (s.finish (schedArmOp Config.hw d s.block, ⟨.ok, 0#8⟩)) := rfl
theorem exec_schedCancel (s : State) :
    exec .schedCancel s = .next (s.finish ({ s.block with sActive := false, sRemain := 0#3 }, ⟨.ok, 0#8⟩)) := rfl
theorem exec_schedTick (now : Nat) (s : State) :
    exec (.schedTick now) s = .next (s.finish (schedTickOp Config.hw now s.block)) := rfl
theorem exec_schedStatus (s : State) :
    exec .schedStatus s =
      .next (s.finish (s.block, ⟨.ok, schedStatusResult s.block.sRemain s.block.sActive⟩)) := rfl
theorem exec_pinClear (s : State) :
    exec .pinClear s = .next (s.finish ({ s.block with rfPin := .low }, ⟨.ok, 0#8⟩)) := rfl

/-- A step that answers a next state idles, or runs the operation the next issue decodes to. -/
theorem step_cases {s t : State} (h : step s = .next t) :
    (s.issues = [] ∧ t = s) ∨
    (∃ p rest i, s.issues = p :: rest ∧ decode p = .ok i ∧ exec i { s with issues := rest } = .next t) := by
  unfold step at h
  split at h
  · rename_i hs
    exact .inl ⟨hs, by injection h with h; exact h.symm⟩
  · rename_i p rest hs
    split at h
    · cases h
    · rename_i i hi
      exact .inr ⟨p, rest, i, hs, hi, h⟩

@[simp] theorem run_zero (s : State) : run 0 s = .next s := rfl

/-- A run whose first step answers a next state goes on from it. -/
theorem run_succ {s t : State} (h : step s = .next t) (k : Nat) : run (k + 1) s = run k t := by
  rw [run]; simp [h]

/-- A run whose first step is refused is refused. -/
theorem run_refused {s : State} {r : Refusal} (h : step s = .refused r) (k : Nat) : run (k + 1) s = .refused r := by
  rw [run]; simp [h]

theorem host_run_next (M : Host.Core) {s t : M.State} (h : M.step s = .next t) (k : Nat) :
    M.run (k + 1) s = M.run k t := by
  rw [Host.Core.run.eq_2, h]

theorem host_run_refused (M : Host.Core) {s : M.State} {r : M.Refusal} (h : M.step s = .refused r) (k : Nat) :
    M.run (k + 1) s = .refused r := by
  rw [Host.Core.run.eq_2, h]

/-- `run` is the host's run of this machine. -/
theorem core_run_eq_run (k : Nat) (s : State) : Sys2Proof.core.run k s = run k s := by
  induction k generalizing s with
  | zero => rfl
  | succ k ih =>
    cases h : step s with
    | next t => exact (host_run_next Sys2Proof.core h k).trans ((ih t).trans (run_succ h k).symm)
    | fault r => exact nomatch r
    | refused r => exact (host_run_refused Sys2Proof.core h k).trans (run_refused h k).symm

/-- A run of `j + k` steps is a run of `j` and then of `k`. -/
theorem run_add {j k : Nat} {s t : State} (h : run j s = .next t) : run (j + k) s = run k t := by
  induction j generalizing s with
  | zero => simp at h; simp [h]
  | succ j ih =>
    rw [Nat.succ_add]
    cases hs : step s with
    | next u => rw [run_succ hs] at h ⊢; exact ih h
    | fault r => exact nomatch r
    | refused r => rw [run_refused hs] at h; cases h

/-- The issue of a SCHED_TICK decodes to it, NOW being the count in CLK_W bits. -/
theorem decode_schedTickAt (time : Nat) :
    decode (Issue.schedTickAt time) = .ok (.schedTick (time % 2 ^ Config.hw.clkW)) := by
  simp [decode, decodeFor, Issue.schedTickAt, rsvField, selectOp, opField, lenField, Instr.takesData, Instr.context,
    Issue.now]

/-- The timer's issue decodes to TX_TICK. -/
theorem decode_tick : decode Issue.tick = .ok .txTick := by decide

/-- A step with the timer's issue next. -/
theorem step_tick {s : State} {rest : List Issue} (hs : s.issues = Issue.tick :: rest) :
    step s = .next ({ s with issues := rest }.finish (txTickOp s.block, ⟨.ok, 0#8⟩)) := by
  unfold step; rw [hs]; simp only [decode_tick]; rfl

/-- A step with a SCHED_TICK next. -/
theorem step_schedTickAt {s : State} {time : Nat} {rest : List Issue} (hs : s.issues = Issue.schedTickAt time :: rest) :
    step s = .next ({ s with issues := rest }.finish (schedTickOp Config.hw (time % 2 ^ Config.hw.clkW) s.block)) := by
  unfold step; rw [hs]; simp only [decode_schedTickAt]; rfl

/-- A tick while Sending, before the last level, changes RF_PIN and the cursor only. -/
theorem step_tick_sending {s : State} {rest : List Issue} (hs : s.issues = Issue.tick :: rest)
    (h : s.block.txState = .sending) (hc : s.block.txCursor + 1#8 ≠ s.block.txLen) :
    ∃ t, step s = .next t ∧ t.issues = rest ∧
      t.block = { s.block with rfPin := s.block.cursorLevel, txCursor := s.block.txCursor + 1#8 } := by
  refine ⟨_, step_tick hs, rfl, ?_⟩
  rcases txTickOp_cases s.block with ⟨a, _⟩ | ⟨a, _⟩ | ⟨_, a, _⟩ | ⟨_, _, a⟩ <;> simp_all

/-- The tick of the last level changes RF_PIN, and enters JustCompleted with the cursor at 0. -/
theorem step_tick_last {s : State} {rest : List Issue} (hs : s.issues = Issue.tick :: rest)
    (h : s.block.txState = .sending) (hc : s.block.txCursor + 1#8 = s.block.txLen) :
    ∃ t, step s = .next t ∧ t.issues = rest ∧
      t.block = { s.block with rfPin := s.block.cursorLevel, txCursor := 0#8, txState := .justCompleted } := by
  refine ⟨_, step_tick hs, rfl, ?_⟩
  rcases txTickOp_cases s.block with ⟨a, _⟩ | ⟨a, _⟩ | ⟨_, _, a⟩ | ⟨_, a, _⟩ <;> simp_all

/-- The tick in JustCompleted enters Idle. -/
theorem step_tick_justCompleted {s : State} {rest : List Issue} (hs : s.issues = Issue.tick :: rest)
    (h : s.block.txState = .justCompleted) :
    ∃ t, step s = .next t ∧ t.issues = rest ∧ t.block = { s.block with txState := .idle } := by
  refine ⟨_, step_tick hs, rfl, ?_⟩
  rcases txTickOp_cases s.block with ⟨a, _⟩ | ⟨_, a⟩ | ⟨a, _⟩ | ⟨a, _⟩ <;> simp_all

/-- Ticks while Sending, before the last level, change RF_PIN and the cursor only. -/
theorem run_ticks_sending (m : Nat) {s : State} {rest : List Issue} (hs : s.issues = List.replicate m Issue.tick ++ rest)
    (h : s.block.txState = .sending) (hc : s.block.txCursor.toNat + m < s.block.txLen.toNat) :
    ∃ t v, run m s = .next t ∧ t.issues = rest ∧ t.block.txCursor.toNat = s.block.txCursor.toNat + m ∧
      t.block = { s.block with rfPin := v, txCursor := t.block.txCursor } := by
  induction m generalizing s with
  | zero => exact ⟨s, s.block.rfPin, rfl, hs, rfl, rfl⟩
  | succ m ih =>
    have hl := s.block.txLen.isLt
    obtain ⟨u, hu, hui, hub⟩ := step_tick_sending (rest := List.replicate m Issue.tick ++ rest)
      (by rw [hs, List.replicate_succ]; rfl) h (by bv_omega)
    have hcu : u.block.txCursor.toNat = s.block.txCursor.toNat + 1 := by rw [hub]; simp only; bv_omega
    obtain ⟨t, v, ht, hti, htc, htb⟩ := ih hui (by rw [hub]; exact h) (by rw [hcu, hub]; simp only; omega)
    exact ⟨t, v, by rw [run_succ hu]; exact ht, hti, by omega, by rw [htb, hub]⟩

/-- A Waveform's ticks and the tick after them leave the transmitter Idle, the cursor at 0, and but for RF_PIN all else
as it was. -/
theorem run_ticks_to_idle {s : State} {rest : List Issue} (n : Nat) (hn : s.block.txLen.toNat = n + 1)
    (hs : s.issues = List.replicate (n + 2) Issue.tick ++ rest) (h : s.block.txState = .sending)
    (hc : s.block.txCursor = 0#8) :
    ∃ t v, run (n + 2) s = .next t ∧ t.issues = rest ∧
      t.block = { s.block with rfPin := v, txCursor := 0#8, txState := .idle } := by
  obtain ⟨u, _, hu, hui, huc, hub⟩ := run_ticks_sending n (rest := Issue.tick :: Issue.tick :: rest)
    (by rw [hs, List.replicate_add]; simp) h (by rw [hc]; simp; omega)
  have hlast : u.block.txCursor + 1#8 = u.block.txLen := by
    have hl : u.block.txLen = s.block.txLen := by rw [hub]
    have := s.block.txLen.isLt
    rw [hl]; rw [hc] at huc; simp at huc; bv_omega
  have hus : u.block.txState = .sending := by rw [hub]; exact h
  obtain ⟨w, hw, hwi, hwb⟩ := step_tick_last hui hus hlast
  obtain ⟨t, ht, hti, htb⟩ := step_tick_justCompleted hwi (by rw [hwb])
  exact ⟨t, u.block.cursorLevel, by rw [run_add hu, run_succ hw, run_succ ht]; rfl, hti, by rw [htb, hwb, hub]⟩

end Sys2Proof.Machine
end

