-- ==== Sys2Proof/Laws/PerInstr.lean ====
section
/-! SUPPORT. The fields of every operation's command word (30_encoding.md R52). -/

namespace Sys2Proof.Laws.EncodedFields

/-- OP, RSV and LEN stand in the word where 30_encoding.md R52 puts them. -/
def Statement (i : Instr) : Prop :=
  opField (encodeWord i) = i.op ∧ rsvField (encodeWord i) = 0#4 ∧
    lenField (encodeWord i) = BitVec.ofNat 8 i.dataOperand.length

theorem fields_of_word (l : BitVec 8) (o : BitVec 4) :
    opField (l.setWidth 16 <<< 8 ||| o.setWidth 16) = o ∧ rsvField (l.setWidth 16 <<< 8 ||| o.setWidth 16) = 0#4 ∧
      lenField (l.setWidth 16 <<< 8 ||| o.setWidth 16) = l := by
  refine ⟨?_, ?_, ?_⟩ <;> apply BitVec.eq_of_getLsbD_eq <;> intro k hk
  · simp [opField, hk, show k < 8 by omega, show k < 16 by omega]
  · simp [rsvField, BitVec.getLsbD_extractLsb', show 4 + k < 8 by omega]
  · simp [lenField, hk, show 8 + k < 16 by omega, BitVec.getLsbD_of_ge o (8 + k) (by omega)]

theorem encode (data : List Byte) : Statement (.encode data) := fields_of_word _ _
theorem txStart : Statement .txStart := fields_of_word _ _
theorem txStatus : Statement .txStatus := fields_of_word _ _
theorem txTick : Statement .txTick := fields_of_word _ _
theorem schedArm (data : List Byte) : Statement (.schedArm data) := fields_of_word _ _
theorem schedCancel : Statement .schedCancel := fields_of_word _ _
theorem schedTick (now : Nat) : Statement (.schedTick now) := fields_of_word _ _
theorem schedStatus : Statement .schedStatus := fields_of_word _ _
theorem pinClear : Statement .pinClear := fields_of_word _ _

end Sys2Proof.Laws.EncodedFields
end

