-- ==== Sys2Proof/Certificates/Slice0/Obligations.lean ====
section
/-! DEFINITION. The statements for the provers, each from the rules of spec/ its docstring names. -/

open Sys2Proof Sys2Proof.Machine

/-! ### The command interface -/

/-- Decode and encode agree: every well-formed operation is what the decoder reads from its own issue
(30_encoding.md R52 to R54). -/
def Obligations.DecodeOfEncodeIsTheOperation : Prop :=
  ∀ i : Instr, i.wf = true → decode (encode i) = .ok i

/-- What the decoder accepts is well-formed, encodes back to the same word and belongs to the issuing context
(30_encoding.md R52, R53, R57). -/
def Obligations.DecodedOperationKeepsItsWord : Prop :=
  ∀ (p : Issue) (i : Instr), decode p = .ok i → i.wf = true ∧ encodeWord i = p.cmd ∧ i.context = p.ctx

/-- The decoder accepts exactly the words of 30_encoding.md R58: RSV = 0, OP in 1..9, LEN = 0 but for ENCODE and
SCHED_ARM, and the interrupt context exactly for TX_TICK. -/
def Obligations.DecoderAcceptsExactlyTheTable : Prop :=
  ∀ p : Issue,
    (∃ i, decode p = .ok i) ↔
      p.cmd.extractLsb' 4 4 = 0#4 ∧ 1 ≤ (p.cmd.extractLsb' 0 4).toNat ∧ (p.cmd.extractLsb' 0 4).toNat ≤ 9 ∧
        (p.cmd.extractLsb' 0 4 = 1#4 ∨ p.cmd.extractLsb' 0 4 = 5#4 ∨ p.cmd.extractLsb' 8 8 = 0#8) ∧
        (p.cmd.extractLsb' 0 4 = 4#4 ↔ p.ctx = .interrupt)

/-- The OP table of 30_encoding.md R53, with the operands of R54: the first LEN data bytes in port order, and NOW as the
clock's count in CLK_W bits (the count is the model's port, log entry 8; 60_exceptions.md R108). -/
def Obligations.EveryOperationWordSelectsItsOperation : Prop :=
  ∀ p : Issue,
    (p.ctx = .interrupt → p.cmd = 0x0004#16 → decode p = .ok .txTick) ∧
    (p.ctx = .foreground →
      (p.cmd.extractLsb' 0 8 = 0x01#8 →
        decode p = .ok (.encode (p.data.toList.take (p.cmd.extractLsb' 8 8).toNat))) ∧
      (p.cmd = 0x0002#16 → decode p = .ok .txStart) ∧
      (p.cmd = 0x0003#16 → decode p = .ok .txStatus) ∧
      (p.cmd.extractLsb' 0 8 = 0x05#8 →
        decode p = .ok (.schedArm (p.data.toList.take (p.cmd.extractLsb' 8 8).toNat))) ∧
      (p.cmd = 0x0006#16 → decode p = .ok .schedCancel) ∧
      (p.cmd = 0x0007#16 → decode p = .ok (.schedTick (p.clock % 2 ^ Config.hw.clkW))) ∧
      (p.cmd = 0x0008#16 → decode p = .ok .schedStatus) ∧
      (p.cmd = 0x0009#16 → decode p = .ok .pinClear))

/-- The worked encodings ENCODE [0xA5] and SCHED_TICK @100000 of 30_encoding.md R61, issued from the foreground with their
operands on the ports; and bare words (R53, R61) through `decodeTableWord`. For a bare word the context, taken from the OP,
and the data bytes, read as zero, are the model's own choice (log entry 2): the operand of its ENCODE clause is that choice,
not the spec's. -/
def Obligations.WorkedWordsDecode : Prop :=
  decode ⟨.foreground, 0x0101, dataPort [0xA5], 0⟩ = .ok (.encode [0xA5]) ∧
    decode ⟨.foreground, 0x0007, dataPort [], 100000⟩ = .ok (.schedTick 100000) ∧
    decodeTableWord 16 0x0101 = some (.encode [0#8]) ∧ decodeTableWord 16 0x0002 = some .txStart ∧
    decodeTableWord 16 0x0004 = some .txTick ∧ decodeTableWord 16 0x0006 = some .schedCancel ∧
    decodeTableWord 16 0x0104 = none ∧ decodeTableWord 16 0x0010 = none ∧ decodeTableWord 16 0x000A = none

/-- A reserved word is refused with STATUS = REFUSED, code 7, and RESULT = 0, and gives no next state
(30_encoding.md R56). -/
def Obligations.ReservedWordIsRefused : Prop :=
  ∀ (s : State) (p : Issue) (rest : List Issue), s.issues = p :: rest →
    (p.cmd.extractLsb' 0 4 = 0#4 ∨ 10 ≤ (p.cmd.extractLsb' 0 4).toNat ∨ p.cmd.extractLsb' 4 4 ≠ 0#4 ∨
      (p.cmd.extractLsb' 0 4 ≠ 1#4 ∧ p.cmd.extractLsb' 0 4 ≠ 5#4 ∧ p.cmd.extractLsb' 8 8 ≠ 0#8)) →
    ∃ e, step s = .refused (.commandRefused e p.cmd p.ctx) ∧
      (Refusal.commandRefused e p.cmd p.ctx).response = ⟨.refused, 0#8⟩ ∧ Status.refused.code = 7#8

/-- TX_TICK from the foreground, and any other OP from the interrupt, is refused as a reserved word is
(30_encoding.md R57). -/
def Obligations.WrongContextIsRefused : Prop :=
  ∀ (s : State) (p : Issue) (rest : List Issue), s.issues = p :: rest →
    ((p.cmd.extractLsb' 0 4 = 4#4 ∧ p.ctx = .foreground) ∨ (p.cmd.extractLsb' 0 4 ≠ 4#4 ∧ p.ctx = .interrupt)) →
    ∃ e, step s = .refused (.commandRefused e p.cmd p.ctx) ∧
      (Refusal.commandRefused e p.cmd p.ctx).response = ⟨.refused, 0#8⟩

/-- A step runs the operation the next issue decodes to, on the state with that issue taken off
(20_memory.md R48: one total order of whole operations). -/
def Obligations.StepRunsTheDecodedOperation : Prop :=
  ∀ (s : State) (p : Issue) (rest : List Issue) (i : Instr), s.issues = p :: rest → decode p = .ok i →
    step s = exec i { s with issues := rest }

/-- A word that is issued next runs next. The form is the model's own (log entry 2). -/
def Obligations.WordIssuedNextRunsNext : Prop :=
  ∀ (s : State) (nbits w : Nat) (i : Instr), decodeTableWord nbits w = some i →
    step (s.withFetchWord nbits w) = exec i s

/-- With nothing issued a step keeps the state. This is the model's own choice (log entry 4). -/
def Obligations.NothingIssuedKeepsTheState : Prop :=
  ∀ s : State, s.issues = [] → step s = .next s

/-- Every operation, in every state, answers a next state with exactly one response, never REFUSED, and takes no other
issue: the block has no exception and no halt state (60_exceptions.md R98, R101, 30_encoding.md R51). -/
def Obligations.EveryOperationAnswers : Prop :=
  ∀ (i : Instr) (s : State),
    ∃ t r, exec i s = .next t ∧ t.response = some r ∧ r.status ≠ .refused ∧ t.issues = s.issues

/-- The error list of 60_exceptions.md R98: which operation answers which error, when, and what it changes. -/
def Obligations.ErrorsAreTheListedOnes : Prop :=
  ∀ (i : Instr) (s t : State) (r : Response), exec i s = .next t → t.response = some r →
    (r.status = .busy → i = .txStart ∧ s.block.txState ≠ .idle ∧ t.block = s.block ∧ r.result = 0#8) ∧
    (r.status = .overflow → (∃ d, i = .encode d ∧ 224 < 81 + 16 * d.length) ∧
      t.block = { s.block with encValid := false } ∧ r.result = 0#8) ∧
    (r.status = .invalid → i = .txStart ∧ s.block.encValid = false ∧ t.block = s.block ∧ r.result = 0#8)

/-! ### ENCODE -/

/-- ENCODE of at most L_MAX = 8 bytes: the Waveform of 41_waveform_encoder.md R76, of 81 + 16 L levels (R77), stands at
the front of ENC_BUF; ENC_LEN and RESULT are its level count, ENC_VALID is 1, and nothing else changes (R75). -/
def Obligations.EncodeStagesTheWaveform : Prop :=
  ∀ (s : State) (d : List Byte), d.length ≤ 8 → s.block.encBuf.length = 224 →
    ∃ t, exec (.encode d) s = .next t ∧ t.issues = s.issues ∧
      t.response = some ⟨.ok, BitVec.ofNat 8 (81 + 16 * d.length)⟩ ∧
      t.block = { s.block with
        encBuf :=
          expandByte (Config.wakeupByte 0) ++ expandByte (Config.wakeupByte 1) ++ expandByte (Config.wakeupByte 2) ++
            expandByte (Config.wakeupByte 3) ++ List.replicate 3 .high ++ List.replicate 7 .low ++ [.high, .low] ++
            d.flatMap expandByte ++ List.replicate 5 .low ++ s.block.encBuf.drop (81 + 16 * d.length)
        encLen := BitVec.ofNat 8 (81 + 16 * d.length)
        encValid := true }

/-- ENCODE rejects exactly when 81 + 16 L > 224, that is for L ≥ 9 (41_waveform_encoder.md R78); a rejected ENCODE writes
no RF_PIN and no TX field, and of the ENC fields ENC_VALID only (60_exceptions.md R100). -/
def Obligations.EncodeRejectsExactlyOverCapacity : Prop :=
  ∀ (s : State) (d : List Byte),
    ∃ t, exec (.encode d) s = .next t ∧
      (t.response = some ⟨.overflow, 0#8⟩ ↔ 224 < 81 + 16 * d.length) ∧
      (t.response = some ⟨.overflow, 0#8⟩ ↔ 9 ≤ d.length) ∧
      (224 < 81 + 16 * d.length → t.block = { s.block with encValid := false })

/-- At any CAP, ENCODE accepts exactly the lengths up to L_MAX = (CAP − 81) / 16, and none when CAP < 81
(00_scope.md R9; 92_eei_decisions.md D27 asks for CAP to be quantified). -/
def Obligations.EncodeAcceptsUpToTheMaximumLength : Prop :=
  ∀ (c : Config) (d : List Byte) (b : Block), c.hdrHigh = 3 → c.hdrLow = 7 → c.stopLow = 5 →
    ((encodeOp c d b).2.status = .ok ↔ 81 ≤ c.cap ∧ d.length ≤ (c.cap - 81) / 16)

/-- The level positions of 41_waveform_encoder.md R79 to R83, for every WAKEUP and every command: the spec's own
inference from the framing R76. -/
def Obligations.WaveformLevelPositions : Prop :=
  ∀ (c : Config) (d : List Byte), c.hdrHigh = 3 → c.hdrLow = 7 → c.stopLow = 5 →
    (∀ (k : Fin 4) (j : Fin 8),
      (waveform c d)[16 * k.val + 2 * (7 - j.val)]? = some (levelOfBit (c.wakeup[k].getLsbD j.val)) ∧
      (waveform c d)[16 * k.val + 2 * (7 - j.val) + 1]? = some (levelOfBit (!c.wakeup[k].getLsbD j.val))) ∧
    (∀ i, 64 ≤ i → i ≤ 66 → (waveform c d)[i]? = some .high) ∧
    (∀ i, 67 ≤ i → i ≤ 73 → (waveform c d)[i]? = some .low) ∧
    (waveform c d)[74]? = some .high ∧ (waveform c d)[75]? = some .low ∧
    (∀ (m : Fin d.length) (j : Fin 8),
      (waveform c d)[76 + 16 * m.val + 2 * (7 - j.val)]? = some (levelOfBit (d[m].getLsbD j.val)) ∧
      (waveform c d)[76 + 16 * m.val + 2 * (7 - j.val) + 1]? = some (levelOfBit (!d[m].getLsbD j.val))) ∧
    (∀ i, 76 + 16 * d.length ≤ i → i ≤ 80 + 16 * d.length → (waveform c d)[i]? = some .low) ∧
    (waveform c d).length = 81 + 16 * d.length

/-- A WAKEUP held as a 32-bit value P with W[k] = P[31−8k : 24−8k] goes out most significant bit first over all 32 bits
(20_memory.md R40). -/
def Obligations.PreambleOfAWordGoesOutMsbFirst : Prop :=
  ∀ (c : Config) (d : List Byte) (P : BitVec 32), (∀ k : Fin 4, c.wakeup[k] = P.extractLsb' (24 - 8 * k.val) 8) →
    ∀ j : Fin 32,
      (waveform c d)[2 * (31 - j.val)]? = some (levelOfBit (P.getLsbD j.val)) ∧
      (waveform c d)[2 * (31 - j.val) + 1]? = some (levelOfBit (!P.getLsbD j.val))

/-- Every bit of the preamble, the start marker and the payload has one High level of its two, and bit expansion alone
makes no run of three equal levels (41_waveform_encoder.md R84, its first two properties, the spec's own inference). -/
def Obligations.ExpandedBitsAreBalanced : Prop :=
  (∀ (c : Config) (d : List Byte) (q : Nat), c.hdrHigh = 3 → c.hdrLow = 7 → c.stopLow = 5 →
    q < 32 ∨ (37 ≤ q ∧ q < 38 + 8 * d.length) →
    ∃ v w : Level, v ≠ w ∧ (waveform c d)[2 * q]? = some v ∧ (waveform c d)[2 * q + 1]? = some w) ∧
  (∀ (d : List Byte) (i : Nat) (v : Level),
    ¬ ((expandBytes d)[i]? = some v ∧ (expandBytes d)[i + 1]? = some v ∧ (expandBytes d)[i + 2]? = some v))

/-- The long runs of equal levels: the only maximal High run of 3 or more is the header's, 3 long when bit 0 of W[3] is 1
and else 4; the only Low ones are levels 67..73 and the run that ends the Waveform, 6 long when L = 0 or bit 0 of the last
byte is 1 and else 5 (41_waveform_encoder.md R84, its last two properties, the spec's own inference). -/
def Obligations.LongRunsAreTheHeaderAndTheStop : Prop :=
  ∀ (c : Config) (d : List Byte) (a b : Nat), c.hdrHigh = 3 → c.hdrLow = 7 → c.stopLow = 5 → 2 ≤ b - a →
    (IsRun (waveform c d) .high a b →
      a ≤ 64 ∧ 66 ≤ b ∧ b - a + 1 = if c.wakeup[3].getLsbD 0 then 3 else 4) ∧
    (IsRun (waveform c d) .low a b →
      (a = 67 ∧ b = 73) ∨
      (b + 1 = (waveform c d).length ∧
        b - a + 1 = match d.getLast? with
          | none => 6
          | some x => if x.getLsbD 0 then 6 else 5))

/-- ENCODE reads no state: from any two states it stages the same Waveform and gives the same response
(41_waveform_encoder.md R85, the spec's own inference). -/
def Obligations.EncodeReadsNoState : Prop :=
  ∀ (s u s' u' : State) (d : List Byte), s.block.encBuf.length = 224 → u.block.encBuf.length = 224 →
    exec (.encode d) s = .next s' → exec (.encode d) u = .next u' →
    s'.response = u'.response ∧ s'.block.encValid = u'.block.encValid ∧
      (d.length ≤ 8 → s'.block.staged = u'.block.staged ∧ s'.block.encLen = u'.block.encLen)

/-! ### The transmitter -/

/-- TX_START in Idle with an unconsumed Waveform: the staged levels are copied, the cursor is 0, the state is Sending, the
Waveform is consumed, and nothing else changes (42_transmitter.md R87; consumption is the spec's decision D10). -/
def Obligations.TxStartLoadsTheStagedWaveform : Prop :=
  ∀ s : State, s.block.txState = .idle → s.block.encValid = true → s.block.encBuf.length = 224 →
    s.block.txBuf.length = 224 → s.block.encLen.toNat ≤ 224 →
    ∃ t, exec .txStart s = .next t ∧ t.issues = s.issues ∧ t.response = some ⟨.ok, 0#8⟩ ∧
      t.block = { s.block with
        txBuf := s.block.encBuf.take s.block.encLen.toNat ++ s.block.txBuf.drop s.block.encLen.toNat
        txLen := s.block.encLen
        txCursor := 0#8
        txState := .sending
        encValid := false }

/-- TX_START outside Idle is BUSY, whatever ENC_VALID holds; in Idle with no unconsumed Waveform it is INVALID; neither
changes the block (42_transmitter.md R87, R93; 92_eei_decisions.md D9). -/
def Obligations.TxStartRejectsBusyBeforeInvalid : Prop :=
  ∀ s : State,
    (s.block.txState ≠ .idle →
      ∃ t, exec .txStart s = .next t ∧ t.block = s.block ∧ t.issues = s.issues ∧ t.response = some ⟨.busy, 0#8⟩) ∧
    (s.block.txState = .idle → s.block.encValid = false →
      ∃ t, exec .txStart s = .next t ∧ t.block = s.block ∧ t.issues = s.issues ∧ t.response = some ⟨.invalid, 0#8⟩)

/-- TX_TICK in Sending puts TX_BUF[TX_CURSOR] on RF_PIN and advances the cursor; the tick that outputs the last level
sets the cursor to 0 and enters JustCompleted; nothing else changes (42_transmitter.md R90). -/
def Obligations.TxTickOutputsTheCursorLevel : Prop :=
  ∀ (s : State) (v : Level), s.block.txState = .sending → s.block.txBuf[s.block.txCursor.toNat]? = some v →
    s.block.txCursor.toNat < s.block.txLen.toNat →
    ∃ t, exec .txTick s = .next t ∧ t.issues = s.issues ∧ t.response = some ⟨.ok, 0#8⟩ ∧
      (s.block.txCursor.toNat + 1 = s.block.txLen.toNat →
        t.block = { s.block with rfPin := v, txCursor := 0#8, txState := .justCompleted }) ∧
      (s.block.txCursor.toNat + 1 < s.block.txLen.toNat →
        t.block = { s.block with rfPin := v, txCursor := s.block.txCursor + 1#8 } ∧
        t.block.txCursor.toNat = s.block.txCursor.toNat + 1)

/-- TX_TICK in JustCompleted enters Idle and writes nothing else; in a sound state RF_PIN is Low, the last level output
(42_transmitter.md R89). -/
def Obligations.TxTickLeavesJustCompleted : Prop :=
  ∀ s : State, s.block.txState = .justCompleted →
    ∃ t, exec .txTick s = .next t ∧ t.issues = s.issues ∧ t.response = some ⟨.ok, 0#8⟩ ∧
      t.block = { s.block with txState := .idle } ∧ (s.Inv → t.block.rfPin = .low)

/-- TX_TICK in Idle changes no state of the block (42_transmitter.md R91, the spec's own inference). -/
def Obligations.TxTickInIdleChangesNothing : Prop :=
  ∀ s : State, s.block.txState = .idle →
    ∃ t, exec .txTick s = .next t ∧ t.issues = s.issues ∧ t.response = some ⟨.ok, 0#8⟩ ∧ t.block = s.block

/-- TX_STATUS, word 0x0003: RESULT is 0b000 in Idle, 0b011 in Sending, 0b101 in JustCompleted, and the block is unchanged
(42_transmitter.md R92). -/
def Obligations.TxStatusReportsTheState : Prop :=
  (∀ p : Issue, p.ctx = .foreground → p.cmd = 0x0003#16 → decode p = .ok .txStatus) ∧
  ∀ s : State,
    ∃ t, exec .txStatus s = .next t ∧ t.block = s.block ∧ t.issues = s.issues ∧
      t.response = some ⟨.ok, match s.block.txState with
        | .idle => 0b000#8
        | .sending => 0b011#8
        | .justCompleted => 0b101#8⟩

/-- PIN_CLEAR, word 0x0009: RF_PIN Low and nothing else (42_transmitter.md R96). -/
def Obligations.PinClearDrivesThePinLow : Prop :=
  (∀ p : Issue, p.ctx = .foreground → p.cmd = 0x0009#16 → decode p = .ok .pinClear) ∧
  ∀ s : State,
    ∃ t, exec .pinClear s = .next t ∧ t.issues = s.issues ∧ t.response = some ⟨.ok, 0#8⟩ ∧
      t.block = { s.block with rfPin := .low }

/-- A PIN_CLEAR in Sending lasts only until the next tick: the tick after it leaves the block as the tick without it
would (42_transmitter.md R97, the spec's own inference). -/
def Obligations.PinClearLastsUntilTheNextTick : Prop :=
  ∀ s t u v : State, s.block.txState = .sending → exec .pinClear s = .next t → exec .txTick t = .next u →
    exec .txTick s = .next v →
    t.block.rfPin = .low ∧ t.block.txState = .sending ∧ u.block = v.block

/-- The transmitter's transitions are those of 42_transmitter.md R86: Idle is left only to Sending, by TX_START with
ENC_VALID = 1 or by a SCHED_TICK's attempt, made when active, with attempts left and due, and accepted (40_scheduler.md R66,
R68); Sending is left only to JustCompleted, by the tick that outputs the last level;
JustCompleted is left only to Idle, by a tick. -/
def Obligations.TransmitterTransitionsAreTheTable : Prop :=
  ∀ (i : Instr) (s t : State), exec i s = .next t → t.block.txState ≠ s.block.txState →
    (s.block.txState = .idle ∧ t.block.txState = .sending ∧ t.block.txCursor = 0#8 ∧
      ((i = .txStart ∧ s.block.encValid = true) ∨
        ∃ now, i = .schedTick now ∧ s.block.sActive = true ∧ s.block.sRemain ≠ 0#3 ∧
          (s.block.sDue = true ∨ 100000 ≤ ((now : Int) - (s.block.sLast : Int)) % (2 ^ Config.hw.clkW : Int)) ∧
          t.response = some ⟨.ok, 0b011#8⟩)) ∨
    (s.block.txState = .sending ∧ t.block.txState = .justCompleted ∧ i = .txTick ∧
      s.block.txCursor + 1#8 = s.block.txLen ∧ t.block.txCursor = 0#8) ∨
    (s.block.txState = .justCompleted ∧ t.block.txState = .idle ∧ i = .txTick)

/-- While the transmitter is not Idle, no operation but TX_TICK writes TX_STATE, TX_CURSOR, TX_BUF or TX_LEN: neither a
start, an ENCODE, an arm, a cancel nor an attempt disturbs a Waveform in flight (42_transmitter.md R93, R94,
40_scheduler.md R71, 20_memory.md R50, the spec's own inferences). -/
def Obligations.OnlyTicksMoveAWaveformInFlight : Prop :=
  ∀ (i : Instr) (s t : State), s.block.txState ≠ .idle → i ≠ .txTick → exec i s = .next t →
    t.block.txState = s.block.txState ∧ t.block.txCursor = s.block.txCursor ∧ t.block.txBuf = s.block.txBuf ∧
      t.block.txLen = s.block.txLen

/-- A started Waveform runs to completion: whatever accepted operations the foreground interleaves, the tick after
`k < n` ticks puts level `k` on RF_PIN, and the n-th enters JustCompleted (42_transmitter.md R94, the spec's own
inference). -/
def Obligations.StartedWaveformRunsToCompletion : Prop :=
  ∀ (s : State) (ps rest : List Issue), s.Inv → s.block.txState = .sending → s.block.txCursor = 0#8 →
    (∀ p ∈ ps, p.accepted = true) → tickCount ps < s.block.txLen.toNat →
    s.issues = ps ++ Issue.tick :: rest →
    ∃ t, run (ps.length + 1) s = .next t ∧ t.issues = rest ∧
      s.block.txBuf[tickCount ps]? = some t.block.rfPin ∧
      (if tickCount ps + 1 = s.block.txLen.toNat then t.block.txState = .justCompleted ∧ t.block.txCursor = 0#8
       else t.block.txState = .sending ∧ t.block.txCursor.toNat = tickCount ps + 1)

/-- JustCompleted lasts one tick: whatever else is issued before it, the next tick enters Idle, and RF_PIN is Low on both
sides of it (42_transmitter.md R89, R95, 70_reset_and_hazards.md R120, the spec's own inferences). -/
def Obligations.JustCompletedLastsOneTick : Prop :=
  ∀ (s : State) (ps rest : List Issue), s.Inv → s.block.txState = .justCompleted →
    (∀ p ∈ ps, p.accepted = true) → tickCount ps = 0 → s.issues = ps ++ Issue.tick :: rest →
    ∃ u t, run ps.length s = .next u ∧ u.block.txState = .justCompleted ∧ u.block.rfPin = .low ∧
      run (ps.length + 1) s = .next t ∧ t.block.txState = .idle ∧ t.block.rfPin = .low ∧ t.issues = rest

/-! ### The scheduler -/

/-- SCHED_ARM, with LEN = L in its word: the packet is stored, five attempts remain, the deadline is cleared, the
scheduler is active; whether or not it was active before, nothing else changes (40_scheduler.md R63, R64). -/
def Obligations.SchedArmReplacesTheSchedule : Prop :=
  ∀ (s : State) (d : List Byte), d.length ≤ 255 → s.block.sPkt.length = 255 →
    ∃ t, exec (.schedArm d) s = .next t ∧ t.issues = s.issues ∧ t.response = some ⟨.ok, 0#8⟩ ∧
      t.block = { s.block with
        sPkt := d ++ s.block.sPkt.drop d.length
        sLen := BitVec.ofNat 8 d.length
        sRemain := 5#3
        sDue := true
        sActive := true } ∧
      t.block.packet = d

/-- SCHED_CANCEL, word 0x0006: inactive with no attempts left, at once and in every transmitter state; nothing else
changes (40_scheduler.md R65). -/
def Obligations.SchedCancelDeactivates : Prop :=
  (∀ p : Issue, p.ctx = .foreground → p.cmd = 0x0006#16 → decode p = .ok .schedCancel) ∧
  ∀ s : State,
    ∃ t, exec .schedCancel s = .next t ∧ t.issues = s.issues ∧ t.response = some ⟨.ok, 0#8⟩ ∧
      t.block = { s.block with sActive := false, sRemain := 0#3 }

/-- SCHED_STATUS, word 0x0008: RESULT bit 0 is S_ACTIVE, bits 3:1 are S_REMAIN, bits 7:4 are 0; the block is unchanged
(40_scheduler.md R70). -/
def Obligations.SchedStatusReportsTheSchedule : Prop :=
  (∀ p : Issue, p.ctx = .foreground → p.cmd = 0x0008#16 → decode p = .ok .schedStatus) ∧
  ∀ s : State,
    ∃ t r, exec .schedStatus s = .next t ∧ t.block = s.block ∧ t.issues = s.issues ∧ t.response = some ⟨.ok, r⟩ ∧
      r.getLsbD 0 = s.block.sActive ∧ r.extractLsb' 1 3 = s.block.sRemain ∧ r.extractLsb' 4 4 = 0#4

/-- A SCHED_TICK that has nothing to do, since the scheduler is inactive or the deadline has not passed, changes nothing
and answers RESULT = 0 (40_scheduler.md R66, R69). -/
def Obligations.SchedTickWaits : Prop :=
  ∀ (s : State) (now : Nat),
    s.block.sActive = false ∨
      (s.block.sActive = true ∧ s.block.sRemain ≠ 0#3 ∧ s.block.sDue = false ∧
        ((now : Int) - (s.block.sLast : Int)) % (2 ^ Config.hw.clkW : Int) < 100000) →
    ∃ t, exec (.schedTick now) s = .next t ∧ t.block = s.block ∧ t.issues = s.issues ∧ t.response = some ⟨.ok, 0#8⟩

/-- A SCHED_TICK that finds S_ACTIVE = 1 and S_REMAIN = 0 deactivates when TX_STATE is Idle and does nothing when it is
Sending or JustCompleted; no operation but SCHED_CANCEL clears S_ACTIVE otherwise (40_scheduler.md R67). -/
def Obligations.DeactivationOnlyByAnIdleSchedTick : Prop :=
  (∀ (s : State) (now : Nat), s.block.sActive = true → s.block.sRemain = 0#3 →
    ∃ t, exec (.schedTick now) s = .next t ∧ t.issues = s.issues ∧
      (s.block.txState = .idle → t.block = { s.block with sActive := false } ∧ t.response = some ⟨.ok, 0b100#8⟩) ∧
      (s.block.txState ≠ .idle → t.block = s.block ∧ t.response = some ⟨.ok, 0#8⟩)) ∧
  (∀ (i : Instr) (s t : State), exec i s = .next t → s.block.sActive = true → t.block.sActive = false →
    i = .schedCancel ∨ (∃ now, i = .schedTick now ∧ s.block.sRemain = 0#3 ∧ s.block.txState = .idle))

/-- An attempt that is due, finds TX_STATE = Idle and a packet that fits: the packet's Waveform is encoded and started in
one step, S_REMAIN goes down by one, S_LAST becomes NOW, S_DUE 0, RESULT 0b011, and nothing else changes
(40_scheduler.md R66, R68, R69). -/
def Obligations.AcceptedAttemptStartsThePacket : Prop :=
  ∀ (s : State) (now : Nat), s.block.Shape Config.hw → s.block.sActive = true → s.block.sRemain ≠ 0#3 →
    (s.block.sDue = true ∨ 100000 ≤ ((now : Int) - (s.block.sLast : Int)) % (2 ^ Config.hw.clkW : Int)) →
    s.block.txState = .idle → s.block.sLen.toNat ≤ 8 →
    ∃ t, exec (.schedTick now) s = .next t ∧ t.issues = s.issues ∧ t.response = some ⟨.ok, 0b011#8⟩ ∧
      t.block = { s.block with
        encBuf := waveform Config.hw (s.block.sPkt.take s.block.sLen.toNat) ++
          s.block.encBuf.drop (81 + 16 * s.block.sLen.toNat)
        encLen := BitVec.ofNat 8 (81 + 16 * s.block.sLen.toNat)
        encValid := false
        txBuf := waveform Config.hw (s.block.sPkt.take s.block.sLen.toNat) ++
          s.block.txBuf.drop (81 + 16 * s.block.sLen.toNat)
        txLen := BitVec.ofNat 8 (81 + 16 * s.block.sLen.toNat)
        txCursor := 0#8
        txState := .sending
        sRemain := s.block.sRemain - 1#3
        sLast := now
        sDue := false } ∧
      t.block.sRemain.toNat + 1 = s.block.sRemain.toNat

/-- An attempt that is due but finds the transmitter not Idle: RESULT 0b001, the fresh Waveform stays staged with
ENC_VALID = 1, and S_REMAIN, S_LAST, S_DUE and every TX field are unchanged (40_scheduler.md R68). -/
def Obligations.BusyAttemptIsNotCounted : Prop :=
  ∀ (s : State) (now : Nat), s.block.Shape Config.hw → s.block.sActive = true → s.block.sRemain ≠ 0#3 →
    (s.block.sDue = true ∨ 100000 ≤ ((now : Int) - (s.block.sLast : Int)) % (2 ^ Config.hw.clkW : Int)) →
    s.block.txState ≠ .idle → s.block.sLen.toNat ≤ 8 →
    ∃ t, exec (.schedTick now) s = .next t ∧ t.issues = s.issues ∧ t.response = some ⟨.ok, 0b001#8⟩ ∧
      t.block = { s.block with
        encBuf := waveform Config.hw (s.block.sPkt.take s.block.sLen.toNat) ++
          s.block.encBuf.drop (81 + 16 * s.block.sLen.toNat)
        encLen := BitVec.ofNat 8 (81 + 16 * s.block.sLen.toNat)
        encValid := true }

/-- An attempt whose packet does not fit CAP = 224 levels: RESULT 0b001, ENC_VALID 0, and nothing else changes
(40_scheduler.md R68; 92_eei_decisions.md D14). -/
def Obligations.OverflowAttemptIsNotCounted : Prop :=
  ∀ (s : State) (now : Nat), s.block.Shape Config.hw → s.block.sActive = true → s.block.sRemain ≠ 0#3 →
    (s.block.sDue = true ∨ 100000 ≤ ((now : Int) - (s.block.sLast : Int)) % (2 ^ Config.hw.clkW : Int)) →
    9 ≤ s.block.sLen.toNat →
    ∃ t, exec (.schedTick now) s = .next t ∧ t.issues = s.issues ∧ t.response = some ⟨.ok, 0b001#8⟩ ∧
      t.block = { s.block with encValid := false }

/-- At any CAP, a due attempt is accepted exactly when TX_STATE = Idle and the packet's level count fits CAP
(40_scheduler.md R68, R72; 92_eei_decisions.md D27). -/
def Obligations.DueAttemptIsAcceptedExactlyWhenIdleAndFitting : Prop :=
  ∀ (c : Config) (now : Nat) (b : Block), b.sActive = true → b.sRemain ≠ 0#3 → b.attemptDue c now = true →
    ((schedTickOp c now b).2 = ⟨.ok, 0b011#8⟩ ↔
      b.txState = .idle ∧ levelCount c (b.sPkt.take b.sLen.toNat).length ≤ c.cap) ∧
    ((schedTickOp c now b).2 = ⟨.ok, 0b011#8⟩ ∨ (schedTickOp c now b).2 = ⟨.ok, 0b001#8⟩)

/-- A SCHED_TICK does not interpret the packet's bytes: with the same S_LEN and other bytes it answers the same and
leaves the same state but for the levels themselves (10_state.md R26, 20_memory.md R46). -/
def Obligations.PacketBytesAreOpaque : Prop :=
  ∀ (s u s' u' : State) (now : Nat) (pk : List Byte), s.block.sPkt.length = 255 → pk.length = 255 →
    u = { s with block := { s.block with sPkt := pk } } → exec (.schedTick now) s = .next s' →
    exec (.schedTick now) u = .next u' →
    u'.response = s'.response ∧
      u'.block = { s'.block with sPkt := pk, encBuf := u'.block.encBuf, txBuf := u'.block.txBuf }

/-- Between one SCHED_ARM and the next, at most five attempts are accepted, whatever else is issued
(40_scheduler.md R72, the spec's own inference). -/
def Obligations.AtMostFiveAttemptsPerArm : Prop :=
  ∀ (s t : State) (d : List Byte) (k : Nat), exec (.schedArm d) s = .next t →
    (∀ p ∈ t.issues.take k, p.isArm = false) → acceptedAttempts k t ≤ 5

/-- Two consecutive accepted attempts with no SCHED_ARM between them, at clock values t_a and t_b:
elapsed(t_a, t_b) ≥ T_ATTEMPT (40_scheduler.md R72, the spec's own inference). -/
def Obligations.ConsecutiveAttemptsAreSpaced : Prop :=
  ∀ (r s u t : State) (p q : Issue) (rest rest' : List Issue) (ta tb k : Nat),
    r.issues = p :: rest → decode p = .ok (.schedTick ta) → step r = .next s → acceptedAttempt r s = true →
    (∀ x ∈ s.issues.take k, x.isArm = false) → acceptedAttempts k s = 0 → run k s = .next u →
    u.issues = q :: rest' → decode q = .ok (.schedTick tb) → step u = .next t → acceptedAttempt u t = true →
    100000 ≤ ((tb : Int) - (ta : Int)) % (2 ^ Config.hw.clkW : Int)

/-- One attempt of a schedule, with the ticks that carry it out: at a true time `time` at which an attempt is due, with
the transmitter Idle and S_LEN ≤ 8, SCHED_TICK and then n + 1 ticks put the packet's n levels on RF_PIN, level k with the
k + 1-st tick, and return to Idle with one attempt fewer (40_scheduler.md R74, 42_transmitter.md R94, the spec's own inferences; the clock law of 60_exceptions.md
R108 is the premise). -/
def Obligations.OneAttemptSendsAndReturnsToIdle : Prop :=
  ∀ (s : State) (time : Nat) (rest : List Issue), s.Inv → s.block.sActive = true → s.block.sRemain ≠ 0#3 →
    s.block.txState = .idle → s.block.sLen.toNat ≤ 8 →
    (s.block.sDue = true ∨ ∃ last, s.block.sLast = last % 2 ^ Config.hw.clkW ∧ last + 100000 ≤ time ∧
      time < last + 2 ^ Config.hw.clkW) →
    s.issues = attemptIssues time (81 + 16 * s.block.sLen.toNat) ++ rest →
    (∀ k, k < 81 + 16 * s.block.sLen.toNat →
      ∃ u, run (k + 2) s = .next u ∧ (waveform Config.hw s.block.packet)[k]? = some u.block.rfPin) ∧
    ∃ t, run (81 + 16 * s.block.sLen.toNat + 2) s = .next t ∧ t.Inv ∧ t.issues = rest ∧
      t.block.txState = .idle ∧ t.block.rfPin = .low ∧ t.block.sActive = true ∧
      t.block.sRemain.toNat + 1 = s.block.sRemain.toNat ∧ t.block.sLast = time % 2 ^ Config.hw.clkW ∧
      t.block.sDue = false ∧ t.block.sPkt = s.block.sPkt ∧ t.block.sLen = s.block.sLen

/-- A full schedule (Scenario C) of five SCHED_TICKs at least T_ATTEMPT apart, with exactly the ticks of each Waveform after
each: it starts five transmissions, and the next SCHED_TICK deactivates (40_scheduler.md R74, the spec's own inference; the clock law of
60_exceptions.md R108 is the premise). -/
def Obligations.FullScheduleMakesFiveAttemptsAndDeactivates : Prop :=
  ∀ (s : State) (t1 t2 t3 t4 t5 t6 : Nat) (rest : List Issue), s.Inv → s.block.sActive = true →
    s.block.sRemain = 5#3 → s.block.sDue = true → s.block.txState = .idle → s.block.sLen.toNat ≤ 8 →
    t1 + 100000 ≤ t2 → t2 < t1 + 2 ^ Config.hw.clkW → t2 + 100000 ≤ t3 → t3 < t2 + 2 ^ Config.hw.clkW →
    t3 + 100000 ≤ t4 → t4 < t3 + 2 ^ Config.hw.clkW → t4 + 100000 ≤ t5 → t5 < t4 + 2 ^ Config.hw.clkW →
    s.issues =
      attemptIssues t1 (81 + 16 * s.block.sLen.toNat) ++ (attemptIssues t2 (81 + 16 * s.block.sLen.toNat) ++
        (attemptIssues t3 (81 + 16 * s.block.sLen.toNat) ++ (attemptIssues t4 (81 + 16 * s.block.sLen.toNat) ++
          (attemptIssues t5 (81 + 16 * s.block.sLen.toNat) ++ (Issue.schedTickAt t6 :: rest))))) →
    acceptedAttempts (5 * (81 + 16 * s.block.sLen.toNat + 2) + 1) s = 5 ∧
    ∃ t, run (5 * (81 + 16 * s.block.sLen.toNat + 2) + 1) s = .next t ∧ t.issues = rest ∧
      t.response = some ⟨.ok, 0b100#8⟩ ∧ t.block.sActive = false ∧ t.block.sRemain = 0#3 ∧
      t.block.txState = .idle ∧ t.block.rfPin = .low

/-- A full schedule, whatever else is issued between: five SCHED_TICKs at least T_ATTEMPT apart that find TX_STATE = Idle
each start the packet's Waveform, S_REMAIN running 4, 3, 2, 1, 0, and the SCHED_TICK after the fifth that finds Idle
deactivates. Between them may stand any accepted issue but SCHED_ARM and SCHED_CANCEL; a further SCHED_TICK there finds the
transmitter not Idle, or comes before the next deadline while attempts remain (40_scheduler.md R74, R67, the spec's own
inference; the clock law of 60_exceptions.md R108 is the premise). -/
def Obligations.FullScheduleToleratesInterleavedIssues : Prop :=
  ∀ (s : State) (slots : List (Nat × List Issue)) (tEnd : Nat) (rest : List Issue), s.Inv → s.block.sActive = true →
    s.block.sRemain = 5#3 → s.block.sDue = true → s.block.sLen.toNat ≤ 8 → slots.length = 5 →
    (∀ j a b, slots[j]? = some a → slots[j + 1]? = some b → a.1 + 100000 ≤ b.1 ∧ b.1 < a.1 + 2 ^ Config.hw.clkW) →
    (∀ x ∈ slots, ∀ p ∈ x.2, p.keepsArmed = true) →
    s.issues = scheduleIssues slots ++ Issue.schedTickAt tEnd :: rest →
    (∀ j, j ≤ 5 → ∀ u, run (scheduleIssues (slots.take j)).length s = .next u → u.block.txState = .idle) →
    (∀ j x k q now u, slots[j]? = some x → x.2[k]? = some q → decode q = .ok (.schedTick now) →
      run ((scheduleIssues (slots.take j)).length + 1 + k) s = .next u →
      u.block.txState ≠ .idle ∨ (j < 4 ∧ x.1 ≤ q.clock ∧ q.clock < x.1 + 100000)) →
    (∀ j x, slots[j]? = some x →
      ∃ u, run ((scheduleIssues (slots.take j)).length + 1) s = .next u ∧ u.response = some ⟨.ok, 0b011#8⟩ ∧
        u.block.txState = .sending ∧ u.block.txCursor = 0#8 ∧ u.block.active = waveform Config.hw s.block.packet ∧
        u.block.sActive = true ∧ u.block.sRemain.toNat + j = 4) ∧
    acceptedAttempts ((scheduleIssues slots).length + 1) s = 5 ∧
    ∃ t, run ((scheduleIssues slots).length + 1) s = .next t ∧ t.issues = rest ∧
      t.response = some ⟨.ok, 0b100#8⟩ ∧ t.block.sActive = false ∧ t.block.sRemain = 0#3 ∧
      t.block.txState = .idle ∧ t.block.rfPin = .low

/-- A packet that does not fit stays armed: with S_LEN ≥ 9, and neither SCHED_ARM, SCHED_CANCEL nor a TX_START of the
foreground's own issued, every run leaves the scheduler active with its attempts, the transmitter Idle and RF_PIN Low
(40_scheduler.md R73, 70_reset_and_hazards.md R124, the spec's own inferences, at CAP = 224). -/
def Obligations.UnencodablePacketNeverReachesTheAir : Prop :=
  ∀ (s t : State) (k : Nat), s.Inv → s.block.sActive = true → s.block.sRemain ≠ 0#3 → 9 ≤ s.block.sLen.toNat →
    s.block.txState = .idle →
    (∀ p ∈ s.issues.take k, p.isArm = false ∧ decode p ≠ .ok .schedCancel ∧ decode p ≠ .ok .txStart) →
    run k s = .next t →
    t.block.sActive = true ∧ t.block.sRemain = s.block.sRemain ∧ t.block.sDue = s.block.sDue ∧
      t.block.txState = .idle ∧ t.block.rfPin = .low ∧ acceptedAttempts k s = 0

/-- The invariant of a packet that does not fit: with S_ACTIVE = 1, attempts left and S_LEN ≥ 9, every step but a SCHED_ARM
or a SCHED_CANCEL keeps them so, S_DUE and the packet too, and accepts no attempt, whatever the transmitter is sending; and
but for a TX_START of the foreground's own, an Idle transmitter stays Idle with RF_PIN Low (40_scheduler.md R73,
70_reset_and_hazards.md R124, the spec's own inferences, at CAP = 224). -/
def Obligations.UnencodableScheduleIsKeptByEveryStep : Prop :=
  ∀ s t : State, s.Inv → s.block.sActive = true → s.block.sRemain ≠ 0#3 → 9 ≤ s.block.sLen.toNat →
    (∀ p rest, s.issues = p :: rest → p.isArm = false ∧ decode p ≠ .ok .schedCancel) → step s = .next t →
    t.Inv ∧ t.block.sActive = true ∧ t.block.sRemain = s.block.sRemain ∧ t.block.sDue = s.block.sDue ∧
      t.block.sPkt = s.block.sPkt ∧ t.block.sLen = s.block.sLen ∧ acceptedAttempt s t = false ∧
      (s.block.txState = .idle → (∀ p rest, s.issues = p :: rest → decode p ≠ .ok .txStart) →
        t.block.txState = .idle ∧ t.block.rfPin = .low)

/-- Under the clock law, elapsed is the true time that has passed (40_scheduler.md R69, 60_exceptions.md R108). -/
def Obligations.ElapsedIsTrueTimeUnderTheClockLaw : Prop :=
  ∀ (c : Config) (a b : Nat), a ≤ b → b < a + 2 ^ c.clkW →
    elapsed c (a % 2 ^ c.clkW) (b % 2 ^ c.clkW) = b - a

/-- An attempt never comes early: while less than T_ATTEMPT has truly passed since the last accepted attempt, a SCHED_TICK
makes none (70_reset_and_hazards.md R125, the spec's own inference). -/
def Obligations.AttemptNeverComesEarly : Prop :=
  ∀ (s : State) (p : Issue) (rest : List Issue) (last : Nat), s.issues = p :: rest → p.ctx = .foreground →
    p.cmd = 0x0007#16 → s.block.sDue = false → s.block.sLast = last % 2 ^ Config.hw.clkW → last ≤ p.clock →
    p.clock < last + 100000 →
    ∃ t, step s = .next t ∧ t.issues = rest ∧
      ((t.block = s.block ∧ t.response = some ⟨.ok, 0#8⟩) ∨
        (t.block = { s.block with sActive := false } ∧ t.response = some ⟨.ok, 0b100#8⟩))

/-- S_ACTIVE = 0 does not imply TX_STATE = Idle: from reset, the SCHED_ARM of a packet that fits, a SCHED_TICK at any time
and a SCHED_CANCEL leave the scheduler inactive and the transmitter Sending that packet's Waveform (60_exceptions.md R111,
the spec's own inference). -/
def Obligations.InactiveSchedulerCanStillBeSending : Prop :=
  ∀ (d : List Byte) (time : Nat), d.length ≤ 8 →
    ∃ t, run 3 { State.reset with
          issues := [encode (.schedArm d), Issue.schedTickAt time, encode .schedCancel] } = .next t ∧
      t.block.sActive = false ∧ t.block.txState = .sending ∧ t.block.txCursor = 0#8 ∧
      t.block.active = waveform Config.hw d

/-! ### The whole block -/

/-- A status query is idempotent: issued twice with nothing between, it gives the same response and changes no block state
(20_memory.md R44, the spec's own inference). -/
def Obligations.StatusQueriesAreIdempotent : Prop :=
  ∀ (q : Instr) (s t u : State), q = .txStatus ∨ q = .schedStatus → exec q s = .next t → exec q t = .next u →
    t.block = s.block ∧ u = t

/-- The writers column of 10_state.md R14: an operation not listed for a field leaves it unchanged, a SCHED_TICK counting
as a writer of what the ENCODE and TX_START of its attempt write (40_scheduler.md R68). -/
def Obligations.OnlyListedWritersChangeAField : Prop :=
  ∀ (i : Instr) (s t : State), exec i s = .next t →
    ((∀ d, i ≠ .encode d) → (∀ n, i ≠ .schedTick n) →
      t.block.encBuf = s.block.encBuf ∧ t.block.encLen = s.block.encLen) ∧
    ((∀ d, i ≠ .encode d) → i ≠ .txStart → (∀ n, i ≠ .schedTick n) → t.block.encValid = s.block.encValid) ∧
    (i ≠ .txStart → i ≠ .txTick → (∀ n, i ≠ .schedTick n) →
      t.block.txState = s.block.txState ∧ t.block.txCursor = s.block.txCursor) ∧
    (i ≠ .txStart → (∀ n, i ≠ .schedTick n) → t.block.txBuf = s.block.txBuf ∧ t.block.txLen = s.block.txLen) ∧
    (i ≠ .txTick → i ≠ .pinClear → t.block.rfPin = s.block.rfPin) ∧
    ((∀ d, i ≠ .schedArm d) → i ≠ .schedCancel → (∀ n, i ≠ .schedTick n) →
      t.block.sActive = s.block.sActive ∧ t.block.sRemain = s.block.sRemain) ∧
    ((∀ d, i ≠ .schedArm d) → (∀ n, i ≠ .schedTick n) → t.block.sDue = s.block.sDue) ∧
    ((∀ n, i ≠ .schedTick n) → t.block.sLast = s.block.sLast) ∧
    ((∀ d, i ≠ .schedArm d) → t.block.sPkt = s.block.sPkt ∧ t.block.sLen = s.block.sLen)

/-- What 10_state.md R31 and 70_reset_and_hazards.md R116 give for reset. -/
def Obligations.ResetGivesTheSpecifiedValues : Prop :=
  State.reset.block.SpecifiedReset ∧ State.reset.block.Shape Config.hw

/-- The reset state is sound. It rests on the model's own values for the fields R31 leaves open (log entry 10). -/
def Obligations.ResetIsSound : Prop := State.reset.Inv

/-- Every step keeps a sound state sound: buffers of CAP and PKT_MAX elements, lengths within CAP, staged and active
levels that are Waveforms, the cursor inside the Waveform while Sending and 0 otherwise, RF_PIN Low outside Sending,
S_REMAIN ≤ 5, no attempts when inactive, S_LAST a CLK_W-bit value (10_state.md R14, R16, R19, R20, R24, R27,
42_transmitter.md R95). -/
def Obligations.StepKeepsTheStateSound : Prop :=
  ∀ s t : State, s.Inv → step s = .next t → t.Inv

/-- No observation depends on the fields whose reset values 10_state.md R31 leaves open: two blocks that hold the
specified reset values and anything in the other fields answer every list of issues alike, response by response and pin
level by pin level (R31, R17, R20, the spec's own inference). -/
def Obligations.UnspecifiedResetContentsAreNeverObserved : Prop :=
  ∀ (b b' : Block) (ps : List Issue) (r : Option Response) (k : Nat), b.Shape Config.hw → b'.Shape Config.hw →
    b.SpecifiedReset → b'.SpecifiedReset → SameObservation (run k ⟨b, ps, r⟩) (run k ⟨b', ps, r⟩)

/-- The invariant behind R31's claim: blocks that differ only in what no rule reads (the staged Waveform with ENC_VALID = 0,
the active one outside Sending, the packet with S_ACTIVE = 0, S_LAST with S_DUE = 1) take alike steps, with the same response,
RF_PIN and refusals, and differ only so after each; and two blocks with the specified reset values are such
(10_state.md R17, R20, R31, 40_scheduler.md R65, the spec's own inferences). -/
def Obligations.AlikeBlocksStayAlike : Prop :=
  (∀ a b : Block, a.SpecifiedReset → b.SpecifiedReset → a.Alike b) ∧
  ∀ (a b : Block) (ps : List Issue) (r : Option Response), a.Shape Config.hw → b.Shape Config.hw → a.Alike b →
    (∀ t, step ⟨a, ps, r⟩ = .next t →
      ∃ u, step ⟨b, ps, r⟩ = .next u ∧ u.issues = t.issues ∧ u.response = t.response ∧ t.block.Shape Config.hw ∧
        u.block.Shape Config.hw ∧ t.block.Alike u.block) ∧
    (∀ e, step ⟨a, ps, r⟩ = .refused e → step ⟨b, ps, r⟩ = .refused e)

/-- With ticks at T_LEVEL = 400 µs, every encodable Waveform and the tick after it take at most 84.0 ms, less than
T_ATTEMPT (70_reset_and_hazards.md R129, R130, the spec's own inferences). -/
def Obligations.EncodableWaveformEndsBeforeTheDeadline : Prop :=
  ∀ n : Nat, levelCount Config.hw n ≤ Config.hw.cap →
    (levelCount Config.hw n + 1) * Config.hw.tLevelUs ≤ 84000 ∧ 84000 < Config.hw.tAttempt * Config.hw.clkUnitUs
end

