-- ==== Sys2Proof/Tests/Slice0.lean ====
section
/-! SUPPORT. The model's own tests: ill-formed terms, words written out from 30_encoding.md, vectors of 95_test_vectors.md,
and a concrete instance of every statement's hypotheses. -/

namespace Sys2Proof.Tests

open Sys2Proof.Machine

/-! ### Helpers -/

/-- The test instance of 95_test_vectors.md: CAP = 224, CLK_W = 32, WAKEUP = 12 34 56 78. -/
def cfg : Config := { Config.hw with wakeup := #v[0x12, 0x34, 0x56, 0x78], clkW := 32 }

/-- A level string of the vectors: `n` levels, level 0 in the most significant bit, H as 1. -/
def levels (n v : Nat) : List Level := (List.range n).map fun i => levelOfBit (v.testBit (n - 1 - i))

/-- An issue with the data bytes `d` and the clock at `t`. -/
def issueOf (ctx : Context) (cmd : CmdWord) (d : List Byte) (t : Nat) : Issue := ⟨ctx, cmd, dataPort d, t⟩

/-- The reset block at any configuration, armed with `n` bytes of 0. -/
def armed (c : Config) (n : Nat) : Block :=
  { Block.resetFor c with sActive := true, sRemain := 5#3, sDue := true, sLen := BitVec.ofNat 8 n }

/-- The armed block with the Waveform of no data in flight, the cursor at 0. -/
def sending : Block :=
  { armed Config.hw 1 with
    txState := .sending
    txBuf := writeBuf (List.replicate 224 .low) (waveform Config.hw [])
    txLen := 81#8 }

/-- A state with this block and these issues. -/
def st (b : Block) (ps : List Issue) : State := ⟨b, ps, none⟩

def next? : Host.Outcome State Fault Refusal → Option State
  | .next s => some s
  | .fault _ => none
  | .refused _ => none

/-! ### Ill-formed terms -/

theorem test_wf_refuses_256_bytes : (Instr.encode (List.replicate 256 0#8)).wf = false := by decide +kernel
theorem test_wf_refuses_256_packet_bytes : (Instr.schedArm (List.replicate 256 0#8)).wf = false := by decide +kernel
theorem test_wf_refuses_wide_now : (Instr.schedTick (2 ^ 32)).wfFor cfg = false := by decide +kernel
theorem test_wf_admits_255_bytes : (Instr.encode (List.replicate 255 0#8)).wf = true := by decide +kernel

/-! ### Decode: words written out from 30_encoding.md R52, R53 and R61, LEN, RSV, OP -/

theorem test_decode_encode : decode (issueOf .foreground (0b00000001_0000_0001#16) [0xA5#8] 0) = .ok (.encode [0xA5#8]) := by
  decide +kernel
theorem test_decode_encode_empty : decode (issueOf .foreground (0b00000000_0000_0001#16) [0xA5#8] 0) = .ok (.encode []) := by
  decide +kernel
theorem test_decode_encode_255 :
    decode (issueOf .foreground (0b11111111_0000_0001#16) [] 0) = .ok (.encode (List.replicate 255 0#8)) := by
  decide +kernel
theorem test_decode_txStart : decode (issueOf .foreground (0b00000000_0000_0010#16) [] 0) = .ok .txStart := by decide +kernel
theorem test_decode_txStatus : decode (issueOf .foreground (0b00000000_0000_0011#16) [] 0) = .ok .txStatus := by
  decide +kernel
theorem test_decode_txTick : decode (issueOf .interrupt (0b00000000_0000_0100#16) [] 0) = .ok .txTick := by decide +kernel
theorem test_decode_schedArm :
    decode (issueOf .foreground (0b00001001_0000_0101#16) [1, 2, 3, 0x10, 5, 0, 0x19, 3, 0x30] 0) =
      .ok (.schedArm [1, 2, 3, 0x10, 5, 0, 0x19, 3, 0x30]) := by decide +kernel
theorem test_decode_schedCancel : decode (issueOf .foreground (0b00000000_0000_0110#16) [] 0) = .ok .schedCancel := by
  decide +kernel
theorem test_decode_schedTick :
    decodeFor cfg (issueOf .foreground (0b00000000_0000_0111#16) [] (2 ^ 32 + 100000)) = .ok (.schedTick 100000) := by
  decide +kernel
theorem test_decode_schedTick_at_zero : decode (Issue.schedTickAt 0) = .ok (.schedTick 0) := by decide +kernel
theorem test_decode_schedStatus : decode (issueOf .foreground (0b00000000_0000_1000#16) [] 0) = .ok .schedStatus := by
  decide +kernel
theorem test_decode_pinClear : decode (issueOf .foreground (0b00000000_0000_1001#16) [] 0) = .ok .pinClear := by
  decide +kernel

/-- X7 to X13 of 95_test_vectors.md. -/
theorem test_decode_refuses :
    decode (issueOf .foreground 0x0004 [] 0) = .error .wrongContext ∧
    decode (issueOf .interrupt 0x0002 [] 0) = .error .wrongContext ∧
    decode (issueOf .interrupt 0x0104 [] 0) = .error .lengthNotZero ∧
    decode (issueOf .foreground 0x0106 [] 0) = .error .lengthNotZero ∧
    decode (issueOf .foreground 0x0010 [] 0) = .error .reservedBits ∧
    decode (issueOf .foreground 0x0000 [] 0) = .error .reservedOp ∧
    decode (issueOf .foreground 0x000A [] 0) = .error .reservedOp := by decide +kernel

/-! ### Vectors of 95_test_vectors.md, one step each -/

/-- E2: the whole Waveform of A5 under the test WAKEUP. -/
theorem test_encode_E2 : waveform cfg [0xA5#8] = levels 97 0xacb2b4caccd2d52bc0532cc0 := by decide +kernel
/-- E5: the payload and stop of the longest command. -/
theorem test_encode_E5 : (waveform cfg [1, 2, 3, 4, 5, 6, 7, 8]).drop 76 = levels 133 0xaaacaab2aab4aacaaaccaad2aad4ab2a0 := by decide +kernel
/-- E1, E6, E8, E9: the level counts and the capacity test at CAP = 224, 240 and 80. -/
theorem test_encode_capacity :
    (encodeOp cfg [] (armed cfg 0)).2 = ⟨.ok, 81#8⟩ ∧
    (encodeOp cfg (List.replicate 9 0#8) (armed cfg 0)).2 = ⟨.overflow, 0#8⟩ ∧
    (encodeOp { cfg with cap := 240 } (List.replicate 9 0#8) (armed cfg 0)).2 = ⟨.ok, 225#8⟩ ∧
    (encodeOp { cfg with cap := 80 } [] (armed cfg 0)).2 = ⟨.overflow, 0#8⟩ := by decide +kernel
/-- T4: BUSY is tested before INVALID. -/
theorem test_txStart_T4 :
    (txStartOp { armed cfg 0 with txState := .justCompleted }).2 = ⟨.busy, 0#8⟩ := by decide +kernel
/-- T6: the tick of the last level. -/
theorem test_txTick_T6 :
    let b := txTickOp { armed cfg 0 with txState := .sending, txCursor := 96#8, txLen := 97#8, rfPin := .high }
    b.rfPin = .low ∧ b.txCursor = 0#8 ∧ b.txState = .justCompleted := by decide +kernel
/-- T11: RESULT of TX_STATUS in JustCompleted. -/
theorem test_txStatus_T11 : txStatusResult .justCompleted = 0b101#8 := by decide +kernel
/-- T12: PIN_CLEAR in Sending, RF_PIN High before it. -/
theorem test_pinClear_T12 :
    (next? (execPinClear (st { sending with rfPin := .high } []))).map (fun t => (t.block.rfPin, t.block.txState)) =
      some (.low, .sending) := by decide +kernel
/-- K2: arming again while active replaces the packet and the attempts. -/
theorem test_schedArm_K2 :
    (schedArmOp cfg [0xFF#8] { armed cfg 1 with sRemain := 2#3, sDue := false }).packet = [0xFF#8] ∧
    (schedArmOp cfg [0xFF#8] { armed cfg 1 with sRemain := 2#3, sDue := false }).sRemain = 5#3 := by decide +kernel
/-- K4: a cancel leaves the Waveform in flight. -/
theorem test_schedCancel_K4 :
    (next? (execSchedCancel (st sending []))).map (fun t => (t.block.sActive, t.block.sRemain, t.block.txState)) =
      some (false, 0#3, .sending) := by decide +kernel
/-- K7 and K8: the deadline's boundary, ≥ and not >. -/
theorem test_schedTick_K7_K8 :
    (schedTickOp cfg 99999 { armed cfg 1 with sRemain := 4#3, sDue := false }).2 = ⟨.ok, 0#8⟩ ∧
    (schedTickOp cfg 100000 { armed cfg 1 with sRemain := 4#3, sDue := false }).2 = ⟨.ok, 0b011#8⟩ := by decide +kernel
/-- K9 and K10: the deadline across a wrap of the clock. -/
theorem test_schedTick_K9_K10 :
    (schedTickOp cfg 49999 { armed cfg 1 with sRemain := 4#3, sDue := false, sLast := 2 ^ 32 - 50000 }).2 = ⟨.ok, 0#8⟩ ∧
    (schedTickOp cfg 50000 { armed cfg 1 with sRemain := 4#3, sDue := false, sLast := 2 ^ 32 - 50000 }).2 =
      ⟨.ok, 0b011#8⟩ := by decide +kernel
/-- K15: RESULT of SCHED_STATUS with four attempts left. -/
theorem test_schedStatus_K15 : schedStatusResult 4#3 true = 0b1001#8 := by decide +kernel

/-! ### Sound states for the witnesses -/

theorem armed_shape (n : Nat) : (armed Config.hw n).Shape Config.hw :=
  ⟨List.length_replicate, List.length_replicate, List.length_replicate⟩

theorem sending_shape : sending.Shape Config.hw :=
  ⟨List.length_replicate, (writeBuf_length _ _).trans List.length_replicate, List.length_replicate⟩

theorem armed_sound (n : Nat) (ts : TxState) (h : ts ≠ .sending) :
    ({ armed Config.hw n with txState := ts } : Block).Inv Config.hw where
  shape := ⟨List.length_replicate, List.length_replicate, List.length_replicate⟩
  encLen_le := Nat.zero_le _
  txLen_le := Nat.zero_le _
  staged := fun hv => Bool.noConfusion hv
  active := fun hs => absurd hs h
  cursor_lt := fun hs => absurd hs h
  cursor_rest := fun _ => rfl
  pin_rest := fun _ => rfl
  remain_le := Nat.le_refl 5
  inactive := fun ha => Bool.noConfusion ha
  last_lt := Nat.pos_of_ne_zero (by positivity)

theorem sending_sound : sending.Inv Config.hw where
  shape := sending_shape
  encLen_le := Nat.zero_le _
  txLen_le := by decide
  staged := fun hv => Bool.noConfusion hv
  active := fun _ => ⟨[], by
    have h : (waveform Config.hw []).length = 81 := by rw [waveform_length]; rfl
    have := writeBuf_take (List.replicate 224 Level.low) (waveform Config.hw []) (by rw [h, List.length_replicate]; decide)
    rw [h] at this
    exact this⟩
  cursor_lt := fun _ => by decide
  cursor_rest := fun h => absurd rfl h
  pin_rest := fun h => absurd rfl h
  remain_le := Nat.le_refl 5
  inactive := fun ha => Bool.noConfusion ha
  last_lt := Nat.pos_of_ne_zero (by positivity)

theorem clock_range : 100000 < 2 ^ Config.hw.clkW := hw_wellFormed.2.2.2.1

/-- The deadline's boundary on this hardware, whatever CLK_W is. -/
theorem elapsed_below (n : Nat) (h : n ≤ 100000) : ((n : Int) - ((0 : Nat) : Int)) % (2 ^ Config.hw.clkW : Int) = n := by
  have := clock_range
  rw [Int.natCast_zero, Int.sub_zero]
  exact_mod_cast Nat.mod_eq_of_lt (show n < 2 ^ Config.hw.clkW by omega)

/-! ### Witnesses: one instance of each statement's hypotheses, clause by clause at the boundaries -/

theorem witness_DecodeOfEncodeIsTheOperation :
    (Instr.encode (List.replicate 255 0#8)).wf = true ∧ (Instr.schedArm []).wf = true ∧ (Instr.schedTick 0).wf = true := by
  refine ⟨by decide +kernel, by decide +kernel, ?_⟩
  simp [Instr.wf, Instr.wfFor]

theorem witness_DecodedOperationKeepsItsWord :
    decode (issueOf .foreground 0x0905 [] 0) = .ok (.schedArm (List.replicate 9 0#8)) := by decide +kernel

/-- Each word of the table in its context, LEN at 0 and 255. -/
theorem witness_EveryOperationWordSelectsItsOperation :
    (issueOf .interrupt 0x0004 [] 0).ctx = .interrupt ∧ (issueOf .interrupt 0x0004 [] 0).cmd = 0x0004#16 ∧
    (issueOf .foreground 0xFF01 [] 0).cmd.extractLsb' 0 8 = 0x01#8 ∧
    (issueOf .foreground 0x0001 [] 0).cmd.extractLsb' 0 8 = 0x01#8 ∧
    (issueOf .foreground 0xFF05 [] 0).cmd.extractLsb' 0 8 = 0x05#8 ∧
    (issueOf .foreground 0x0002 [] 0).cmd = 0x0002#16 ∧ (issueOf .foreground 0x0003 [] 0).cmd = 0x0003#16 ∧
    (issueOf .foreground 0x0006 [] 0).cmd = 0x0006#16 ∧ (issueOf .foreground 0x0007 [] 0).cmd = 0x0007#16 ∧
    (issueOf .foreground 0x0008 [] 0).cmd = 0x0008#16 ∧ (issueOf .foreground 0x0009 [] 0).cmd = 0x0009#16 := by
  decide +kernel

/-- OP = 0, OP = 0xA, RSV = 1, and LEN = 1 on SCHED_CANCEL. -/
theorem witness_ReservedWordIsRefused :
    (st (armed cfg 0) [issueOf .foreground 0x0000 [] 0]).issues = [issueOf .foreground 0x0000 [] 0] ∧
    (0x0000#16).extractLsb' 0 4 = 0#4 ∧ 10 ≤ ((0x000A#16).extractLsb' 0 4).toNat ∧ (0x0010#16).extractLsb' 4 4 ≠ 0#4 ∧
    ((0x0106#16).extractLsb' 0 4 ≠ 1#4 ∧ (0x0106#16).extractLsb' 0 4 ≠ 5#4 ∧ (0x0106#16).extractLsb' 8 8 ≠ 0#8) := by
  decide +kernel

theorem witness_WrongContextIsRefused :
    (st (armed cfg 0) [issueOf .foreground 0x0004 [] 0]).issues = [issueOf .foreground 0x0004 [] 0] ∧
    (issueOf .foreground 0x0004 [] 0).cmd.extractLsb' 0 4 = 4#4 ∧ (issueOf .foreground 0x0004 [] 0).ctx = .foreground ∧
    (issueOf .interrupt 0x0002 [] 0).cmd.extractLsb' 0 4 ≠ 4#4 ∧ (issueOf .interrupt 0x0002 [] 0).ctx = .interrupt := by
  decide +kernel

theorem witness_StepRunsTheDecodedOperation :
    (st sending [Issue.tick]).issues = Issue.tick :: [] ∧ decode Issue.tick = .ok .txTick :=
  ⟨rfl, by decide +kernel⟩

theorem witness_WordIssuedNextRunsNext : decodeTableWord 16 0x0905 = some (.schedArm (List.replicate 9 0#8)) := by
  decide +kernel

theorem witness_NothingIssuedKeepsTheState : State.reset.issues = [] := rfl

/-- BUSY, OVERFLOW and INVALID each occur. -/
theorem witness_ErrorsAreTheListedOnes :
    (next? (exec .txStart (st sending []))).map (·.response) = some (some ⟨.busy, 0#8⟩) ∧
    (next? (exec (.encode (List.replicate 9 0#8)) (st sending []))).map (·.response) = some (some ⟨.overflow, 0#8⟩) ∧
    (next? (exec .txStart State.reset)).map (·.response) = some (some ⟨.invalid, 0#8⟩) := by decide +kernel

/-- L = 0 and L = 8. -/
theorem witness_EncodeStagesTheWaveform :
    ([] : List Byte).length ≤ 8 ∧ (List.replicate 8 0#8).length ≤ 8 ∧ State.reset.block.encBuf.length = 224 :=
  ⟨by decide, by decide, List.length_replicate⟩

/-- L = 9 is the least length that is rejected. -/
theorem witness_EncodeRejectsExactlyOverCapacity : 224 < 81 + 16 * (List.replicate 9 0#8).length := by decide

theorem witness_framing_hypotheses : cfg.hdrHigh = 3 ∧ cfg.hdrLow = 7 ∧ cfg.stopLow = 5 := ⟨rfl, rfl, rfl⟩

theorem witness_PreambleOfAWordGoesOutMsbFirst :
    ∀ k : Fin 4, cfg.wakeup[k] = (0x12345678#32).extractLsb' (24 - 8 * k.val) 8 := by decide +kernel

/-- The first and last preamble pair, the start marker, the last payload bit of two bytes. -/
theorem witness_ExpandedBitsAreBalanced :
    (0 < 32 ∨ 37 ≤ 0 ∧ 0 < 38 + 8 * 2) ∧ (31 < 32 ∨ 37 ≤ 31 ∧ 31 < 38 + 8 * 2) ∧ (37 < 32 ∨ 37 ≤ 37 ∧ 37 < 38 + 8 * 2) ∧
      (53 < 32 ∨ 37 ≤ 53 ∧ 53 < 38 + 8 * 2) := by decide

theorem test_run (v : Level) (a b : Nat) (w : List Level) (h1 : a ≤ b) (h2 : b < w.length)
    (h3 : ∀ i < b + 1, a ≤ i → w[i]? = some v) (h4 : ∀ i < a, i + 1 = a → w[i]? ≠ some v) (h5 : w[b + 1]? ≠ some v) :
    IsRun w v a b :=
  ⟨h1, h2, fun i ha hb => h3 i (by omega) ha, fun i hi => h4 i (by omega) hi, h5⟩

/-- The three long runs of E2, and the 5-level stop of a command that ends in a 0 bit (E3). -/
theorem witness_LongRunsAreTheHeaderAndTheStop :
    IsRun (waveform cfg [0xA5#8]) .high 63 66 ∧ IsRun (waveform cfg [0xA5#8]) .low 67 73 ∧
      IsRun (waveform cfg [0xA5#8]) .low 91 96 ∧ IsRun (waveform cfg [0x00#8]) .low 92 96 := by
  refine ⟨test_run _ _ _ _ ?_ ?_ ?_ ?_ ?_, test_run _ _ _ _ ?_ ?_ ?_ ?_ ?_, test_run _ _ _ _ ?_ ?_ ?_ ?_ ?_,
    test_run _ _ _ _ ?_ ?_ ?_ ?_ ?_⟩ <;> decide +kernel

theorem witness_EncodeReadsNoState :
    State.reset.block.encBuf.length = 224 ∧ sending.encBuf.length = 224 ∧
      (∃ t, exec (.encode []) State.reset = .next t) ∧ ∃ t, exec (.encode []) (st sending []) = .next t :=
  ⟨List.length_replicate, List.length_replicate, ⟨_, rfl⟩, ⟨_, rfl⟩⟩

/-- ENC_LEN at its largest. -/
theorem witness_TxStartLoadsTheStagedWaveform :
    let b : Block := { armed Config.hw 0 with encValid := true, encLen := 224#8 }
    b.txState = .idle ∧ b.encValid = true ∧ b.encBuf.length = 224 ∧ b.txBuf.length = 224 ∧ b.encLen.toNat ≤ 224 :=
  ⟨rfl, rfl, List.length_replicate, List.length_replicate, by decide⟩

/-- Sending and JustCompleted for BUSY; Idle with ENC_VALID = 0 for INVALID. -/
theorem witness_TxStartRejectsBusyBeforeInvalid :
    sending.txState ≠ .idle ∧ ({ armed Config.hw 0 with txState := .justCompleted } : Block).txState ≠ .idle ∧
      (armed Config.hw 0).txState = .idle ∧ (armed Config.hw 0).encValid = false := by decide +kernel

/-- The first level, and the last one. -/
theorem witness_TxTickOutputsTheCursorLevel :
    let b : Block := { armed Config.hw 0 with txState := .sending, txLen := 97#8 }
    let z : Block := { b with txCursor := 96#8 }
    (b.txState = .sending ∧ b.txBuf[b.txCursor.toNat]? = some .low ∧ b.txCursor.toNat < b.txLen.toNat ∧
      b.txCursor.toNat + 1 < b.txLen.toNat) ∧
    (z.txState = .sending ∧ z.txBuf[z.txCursor.toNat]? = some .low ∧ z.txCursor.toNat < z.txLen.toNat ∧
      z.txCursor.toNat + 1 = z.txLen.toNat) := by decide +kernel

theorem witness_TxTickLeavesJustCompleted :
    let s := st { armed Config.hw 1 with txState := .justCompleted } []
    s.block.txState = .justCompleted ∧ s.Inv := ⟨rfl, armed_sound 1 _ (by decide)⟩

theorem witness_TxTickInIdleChangesNothing : State.reset.block.txState = .idle := rfl

theorem witness_PinClearLastsUntilTheNextTick :
    sending.txState = .sending ∧ ∃ t u v, exec .pinClear (st sending []) = .next t ∧ exec .txTick t = .next u ∧
      exec .txTick (st sending []) = .next v := ⟨rfl, _, _, _, rfl, rfl, rfl⟩

/-- A start, an accepted attempt, the last tick and the tick after it each change TX_STATE. -/
theorem witness_TransmitterTransitionsAreTheTable :
    (next? (exec .txStart (st { armed Config.hw 0 with encValid := true, encLen := 81#8 } []))).map (·.block.txState) =
      some .sending ∧
    (next? (exec (.schedTick 0) (st (armed Config.hw 8) []))).map (·.block.txState) = some .sending ∧
    (next? (exec .txTick (st { sending with txCursor := 80#8 } []))).map (·.block.txState) = some .justCompleted ∧
    (next? (exec .txTick (st { sending with txState := .justCompleted } []))).map (·.block.txState) = some .idle := by
  decide +kernel

theorem witness_OnlyTicksMoveAWaveformInFlight :
    sending.txState ≠ .idle ∧ Instr.txStart ≠ .txTick ∧ ∃ t, exec .txStart (st sending []) = .next t :=
  ⟨by decide +kernel, by decide, _, rfl⟩

/-- A PIN_CLEAR and a TX_TICK interleaved before the tick; and 80 ticks before the tick of the last of 81 levels. -/
theorem witness_StartedWaveformRunsToCompletion :
    (let ps := [issueOf .foreground 0x0009 [] 0, Issue.tick]
     let s := st sending (ps ++ Issue.tick :: [])
     s.Inv ∧ s.block.txState = .sending ∧ s.block.txCursor = 0#8 ∧ (∀ p ∈ ps, p.accepted = true) ∧
       tickCount ps < s.block.txLen.toNat ∧ tickCount ps + 1 ≠ s.block.txLen.toNat ∧ s.issues = ps ++ Issue.tick :: []) ∧
    (let ps := List.replicate 80 Issue.tick
     let s := st sending (ps ++ Issue.tick :: [])
     s.Inv ∧ s.block.txState = .sending ∧ s.block.txCursor = 0#8 ∧ (∀ p ∈ ps, p.accepted = true) ∧
       tickCount ps < s.block.txLen.toNat ∧ tickCount ps + 1 = s.block.txLen.toNat ∧ s.issues = ps ++ Issue.tick :: []) :=
  ⟨⟨sending_sound, rfl, rfl, by decide +kernel, by decide +kernel, by decide +kernel, rfl⟩,
    sending_sound, rfl, rfl, by decide +kernel, by decide +kernel, by decide +kernel, rfl⟩

theorem witness_JustCompletedLastsOneTick :
    let ps := [issueOf .foreground 0x0002 [] 0]
    let s := st { armed Config.hw 1 with txState := .justCompleted } (ps ++ Issue.tick :: [])
    s.Inv ∧ s.block.txState = .justCompleted ∧ (∀ p ∈ ps, p.accepted = true) ∧ tickCount ps = 0 ∧
      s.issues = ps ++ Issue.tick :: [] :=
  ⟨armed_sound 1 _ (by decide), rfl, by decide +kernel, by decide +kernel, rfl⟩

/-- L = 0 and L = 255. -/
theorem witness_SchedArmReplacesTheSchedule :
    ([] : List Byte).length ≤ 255 ∧ (List.replicate 255 0#8).length ≤ 255 ∧ State.reset.block.sPkt.length = 255 :=
  ⟨by decide, Nat.le_of_eq List.length_replicate, List.length_replicate⟩

/-- Inactive; and active with the deadline one unit away. -/
theorem witness_SchedTickWaits :
    State.reset.block.sActive = false ∧
    (let b : Block := { armed Config.hw 1 with sRemain := 4#3, sDue := false }
     b.sActive = true ∧ b.sRemain ≠ 0#3 ∧ b.sDue = false ∧
       (((99999 : Nat) : Int) - (b.sLast : Int)) % (2 ^ Config.hw.clkW : Int) < 100000) := by
  refine ⟨rfl, rfl, by decide, rfl, ?_⟩
  have := elapsed_below 99999 (by decide)
  simp only [armed, Block.resetFor] at *
  omega

/-- Idle, and not Idle; and a step that clears S_ACTIVE. -/
theorem witness_DeactivationOnlyByAnIdleSchedTick :
    (let b : Block := { armed Config.hw 1 with sRemain := 0#3 }
     b.sActive = true ∧ b.sRemain = 0#3 ∧ b.txState = .idle) ∧
    (let b : Block := { sending with sRemain := 0#3 }
     b.sActive = true ∧ b.sRemain = 0#3 ∧ b.txState ≠ .idle) ∧
    (next? (exec .schedCancel (st sending []))).map (·.block.sActive) = some false := by decide +kernel

/-- Due because the deadline is cleared, S_LEN at 8; and due exactly at T_ATTEMPT. -/
theorem witness_AcceptedAttemptStartsThePacket :
    ((armed Config.hw 8).Shape Config.hw ∧ (armed Config.hw 8).sActive = true ∧ (armed Config.hw 8).sRemain ≠ 0#3 ∧
      (armed Config.hw 8).sDue = true ∧ (armed Config.hw 8).txState = .idle ∧ (armed Config.hw 8).sLen.toNat ≤ 8) ∧
    100000 ≤ (((100000 : Nat) : Int) - ((0 : Nat) : Int)) % (2 ^ Config.hw.clkW : Int) :=
  ⟨⟨armed_shape 8, rfl, by decide, rfl, rfl, by decide⟩, by rw [elapsed_below 100000 (by decide)]; decide⟩

theorem witness_BusyAttemptIsNotCounted :
    sending.Shape Config.hw ∧ sending.sActive = true ∧ sending.sRemain ≠ 0#3 ∧ sending.sDue = true ∧
      sending.txState ≠ .idle ∧ sending.sLen.toNat ≤ 8 :=
  ⟨sending_shape, rfl, by decide, rfl, by decide, by decide⟩

theorem witness_OverflowAttemptIsNotCounted :
    (armed Config.hw 9).Shape Config.hw ∧ (armed Config.hw 9).sActive = true ∧ (armed Config.hw 9).sRemain ≠ 0#3 ∧
      (armed Config.hw 9).sDue = true ∧ 9 ≤ (armed Config.hw 9).sLen.toNat :=
  ⟨armed_shape 9, rfl, by decide, rfl, by decide⟩

theorem witness_DueAttemptIsAcceptedExactlyWhenIdleAndFitting :
    (armed cfg 8).sActive = true ∧ (armed cfg 8).sRemain ≠ 0#3 ∧ (armed cfg 8).attemptDue cfg 0 = true := by
  decide +kernel

theorem witness_PacketBytesAreOpaque :
    (armed Config.hw 8).sPkt.length = 255 ∧ (List.replicate 255 0xFF#8).length = 255 ∧
      (∃ t, exec (.schedTick 0) (st (armed Config.hw 8) []) = .next t) ∧
      ∃ t, exec (.schedTick 0) (st { armed Config.hw 8 with sPkt := List.replicate 255 0xFF#8 } []) = .next t :=
  ⟨List.length_replicate, List.length_replicate, ⟨_, rfl⟩, ⟨_, rfl⟩⟩

theorem witness_AtMostFiveAttemptsPerArm :
    ∃ t, exec (.schedArm [0xA5#8]) (st sending [Issue.schedTickAt 0]) = .next t ∧
      ∀ p ∈ t.issues.take 1, p.isArm = false := ⟨_, rfl, by decide +kernel⟩

/-- A first attempt at 0 and a second at 100000, with the 82 ticks of an empty command between them. -/
def twoAttempts : State :=
  st (armed Config.hw 0) (Issue.schedTickAt 0 :: (List.replicate 82 Issue.tick ++ [Issue.schedTickAt 100000]))

/-- What is known of the state before the second attempt, by running the ticks. -/
def beforeSecond (u : State) : Bool :=
  decide (u.block.sActive = true ∧ u.block.sRemain = 4#3 ∧ u.block.sDue = false ∧ u.block.sLast = 0 ∧
    u.block.sLen = 0#8 ∧ u.block.txState = .idle ∧ u.issues = [Issue.schedTickAt 100000])

theorem twoAttempts_first :
    (next? (step twoAttempts)).any (fun s => acceptedAttempt twoAttempts s &&
      s.issues.all (fun x => !x.isArm) && decide (acceptedAttempts 82 s = 0) &&
      (next? (run 82 s)).any beforeSecond) = true := by decide +kernel

theorem decode_at_100000 : decode (Issue.schedTickAt 100000) = .ok (.schedTick 100000) := by
  rw [decode_schedTickAt, Nat.mod_eq_of_lt clock_range]

theorem second_is_accepted (u : State) (h : beforeSecond u = true) :
    ∃ t, step u = .next t ∧ acceptedAttempt u t = true := by
  obtain ⟨h1, h2, h3, h4, h5, h6, h7⟩ := of_decide_eq_true h
  have hd : u.block.attemptDue Config.hw 100000 = true := by
    have := elapsed_below 100000 (by decide)
    unfold Block.attemptDue elapsed
    rw [h4, this, Bool.or_eq_true]
    exact .inr (by decide)
  have hp : u.block.packet.length = 0 := by simp [Block.packet, h5]
  refine ⟨_, by unfold step; rw [h7]; simp only [decode_at_100000]; rfl, ?_⟩
  unfold acceptedAttempt
  rw [h7]
  simp only [decode_at_100000, finish_response]
  rcases schedTickOp_cases Config.hw 100000 u.block with ⟨a, _⟩ | ⟨_, a, _⟩ | ⟨_, a, _⟩ | ⟨_, _, a, _⟩ | ⟨_, _, _, a⟩
  · rw [h1] at a; cases a
  · rw [h2] at a; cases a
  · rw [h2] at a; cases a
  · rw [hd] at a; cases a
  · rcases attemptOp_cases Config.hw 100000 u.block with ⟨b, _⟩ | ⟨_, b, _⟩ | ⟨_, _, b⟩
    · rw [hp] at b; exact absurd b (by decide)
    · exact absurd h6 b
    · rw [a, b]
      exact decide_eq_true rfl

theorem witness_ConsecutiveAttemptsAreSpaced :
    ∃ (s u t : State) (rest rest' : List Issue), twoAttempts.issues = Issue.schedTickAt 0 :: rest ∧
      decode (Issue.schedTickAt 0) = .ok (.schedTick 0) ∧ step twoAttempts = .next s ∧
      acceptedAttempt twoAttempts s = true ∧ (∀ x ∈ s.issues.take 82, x.isArm = false) ∧ acceptedAttempts 82 s = 0 ∧
      run 82 s = .next u ∧ u.issues = Issue.schedTickAt 100000 :: rest' ∧
      decode (Issue.schedTickAt 100000) = .ok (.schedTick 100000) ∧ step u = .next t ∧ acceptedAttempt u t = true := by
  have h := twoAttempts_first
  cases hs : step twoAttempts with
  | fault r => exact nomatch r
  | refused r => rw [hs] at h; cases h
  | next s =>
    rw [hs] at h
    simp only [next?, Option.any_some, Bool.and_eq_true, decide_eq_true_eq, List.all_eq_true, Bool.not_eq_true'] at h
    obtain ⟨⟨⟨h1, h2⟩, h3⟩, h4⟩ := h
    cases hu : run 82 s with
    | fault r => exact nomatch r
    | refused r => rw [hu] at h4; cases h4
    | next u =>
      rw [hu] at h4
      obtain ⟨t, ht, ha⟩ := second_is_accepted u h4
      obtain ⟨-, -, -, -, -, -, h7⟩ := of_decide_eq_true h4
      exact ⟨s, u, t, _, [], rfl, test_decode_schedTick_at_zero, rfl, h1, fun x hx => h2 x (List.mem_of_mem_take hx), h3,
        hu, h7, decode_at_100000, ht, ha⟩

/-- S_LEN at 8, the first attempt; and a later one, T_ATTEMPT after the last. -/
theorem witness_OneAttemptSendsAndReturnsToIdle :
    (let s := st (armed Config.hw 8) (attemptIssues 0 209 ++ [])
     s.Inv ∧ s.block.sActive = true ∧ s.block.sRemain ≠ 0#3 ∧ s.block.txState = .idle ∧ s.block.sLen.toNat ≤ 8 ∧
       s.block.sDue = true ∧ s.issues = attemptIssues 0 (81 + 16 * s.block.sLen.toNat) ++ []) ∧
    (∃ last, (armed Config.hw 8).sLast = last % 2 ^ Config.hw.clkW ∧ last + 100000 ≤ 100000 ∧
      100000 < last + 2 ^ Config.hw.clkW) :=
  ⟨⟨armed_sound 8 .idle (by decide), rfl, by decide, rfl, by decide, rfl, rfl⟩,
    0, (Nat.zero_mod _).symm, by decide, by rw [Nat.zero_add]; exact clock_range⟩

/-- Five attempts exactly T_ATTEMPT apart. -/
theorem witness_FullScheduleMakesFiveAttemptsAndDeactivates :
    let s := st (armed Config.hw 0) (attemptIssues 0 81 ++ (attemptIssues 100000 81 ++ (attemptIssues 200000 81 ++
      (attemptIssues 300000 81 ++ (attemptIssues 400000 81 ++ (Issue.schedTickAt 500000 :: []))))))
    s.Inv ∧ s.block.sActive = true ∧ s.block.sRemain = 5#3 ∧ s.block.sDue = true ∧ s.block.txState = .idle ∧
      s.block.sLen.toNat ≤ 8 ∧ 81 + 16 * s.block.sLen.toNat = 81 ∧ 0 + 100000 ≤ 100000 ∧
      100000 < 0 + 2 ^ Config.hw.clkW ∧ 200000 < 100000 + 2 ^ Config.hw.clkW ∧
      300000 < 200000 + 2 ^ Config.hw.clkW ∧ 400000 < 300000 + 2 ^ Config.hw.clkW := by
  have := clock_range
  exact ⟨armed_sound 0 .idle (by decide), rfl, rfl, rfl, rfl, by decide, by decide, by decide, by omega, by omega,
    by omega, by omega⟩

/-! A full schedule with issues between: the states it passes through. -/

/-- Armed with no data bytes, `r` attempts left, the last one accepted at time `a`, these issues to come; while Sending,
the whole Waveform still to go. -/
def Held (r : BitVec 3) (a : Nat) (tx : TxState) (ps : List Issue) (s : State) : Prop :=
  s.block.sActive = true ∧ s.block.sRemain = r ∧ s.block.sDue = false ∧ s.block.sLast = a % 2 ^ Config.hw.clkW ∧
    s.block.sLen = 0#8 ∧ s.block.txState = tx ∧ s.issues = ps ∧
    (tx = .sending → s.block.txCursor = 0#8 ∧ s.block.txLen = 81#8)

/-- The test of the deadline `n ≤ 100000` units after `a`. -/
theorem due_after (a n : Nat) (b : Block) (hn : n ≤ 100000) (hd : b.sDue = false) (hl : b.sLast = a % 2 ^ Config.hw.clkW) :
    b.attemptDue Config.hw ((a + n) % 2 ^ Config.hw.clkW) = decide (100000 ≤ n) := by
  have h : elapsed Config.hw b.sLast ((a + n) % 2 ^ Config.hw.clkW) = n := by
    unfold elapsed
    rw [hl]
    push_cast
    rw [← Int.sub_emod, add_sub_cancel_left]
    have := elapsed_below n hn
    rw [Int.natCast_zero, Int.sub_zero] at this
    rw [this]
    rfl
  rw [Block.attemptDue, hd, h, Bool.false_or, hw_tAttempt]

theorem held_attempt {s : State} {r : BitVec 3} {time : Nat} {ps : List Issue} (ha : s.block.sActive = true)
    (hr : s.block.sRemain = r) (h0 : r ≠ 0#3) (hl : s.block.sLen = 0#8) (hi : s.block.txState = .idle)
    (hd : s.block.attemptDue Config.hw (time % 2 ^ Config.hw.clkW) = true)
    (hs : s.issues = Issue.schedTickAt time :: ps) : ∃ v, step s = .next v ∧ Held (r - 1#3) time .sending ps v := by
  have hp : s.block.packet.length = 0 := by simp [Block.packet, hl]
  refine ⟨_, step_schedTickAt hs, ?_⟩
  rcases schedTickOp_cases Config.hw (time % 2 ^ Config.hw.clkW) s.block with
    ⟨a, _⟩ | ⟨_, a, _⟩ | ⟨_, a, _⟩ | ⟨_, _, a, _⟩ | ⟨_, _, _, a⟩
  · rw [ha] at a; cases a
  · exact absurd (hr.symm.trans a) h0
  · exact absurd (hr.symm.trans a) h0
  · rw [hd] at a; cases a
  · rcases attemptOp_cases Config.hw (time % 2 ^ Config.hw.clkW) s.block with ⟨b, _⟩ | ⟨_, b, _⟩ | ⟨_, _, b⟩
    · rw [hp] at b; exact absurd b (by decide)
    · exact absurd hi b
    · rw [a, b]
      exact ⟨ha, congrArg (· - 1#3) hr, rfl, rfl, hl, rfl, rfl,
        fun _ => ⟨rfl, congrArg (fun n => BitVec.ofNat 8 (levelCount Config.hw n)) hp⟩⟩

theorem held_next {s : State} {r : BitVec 3} {a : Nat} {ps : List Issue}
    (h : Held r a .idle (Issue.schedTickAt (a + 100000) :: ps) s) (h0 : r ≠ 0#3) :
    ∃ v, step s = .next v ∧ Held (r - 1#3) (a + 100000) .sending ps v := by
  obtain ⟨h1, h2, h3, h4, h5, h6, h7, _⟩ := h
  exact held_attempt h1 h2 h0 h5 h6 ((due_after a 100000 _ (by decide) h3 h4).trans (by decide)) h7

theorem held_ticks {s : State} {r : BitVec 3} {a : Nat} {ps : List Issue}
    (h : Held r a .sending (List.replicate 82 Issue.tick ++ ps) s) : ∃ t, run 82 s = .next t ∧ Held r a .idle ps t := by
  obtain ⟨h1, h2, h3, h4, h5, h6, h7, h8⟩ := h
  obtain ⟨t, v, ht, hti, htb⟩ := run_ticks_to_idle 80 (by rw [(h8 rfl).2]; rfl) h7 h6 (h8 rfl).1
  refine ⟨t, ht, ?_⟩
  rw [Held, htb]
  exact ⟨h1, h2, h3, h4, h5, rfl, hti, fun h => TxState.noConfusion h⟩

theorem held_slot {s : State} {r : BitVec 3} {a : Nat} {ps : List Issue}
    (h : Held r a .idle (Issue.schedTickAt (a + 100000) :: (List.replicate 82 Issue.tick ++ ps)) s) (h0 : r ≠ 0#3) :
    ∃ t, run 83 s = .next t ∧ Held (r - 1#3) (a + 100000) .idle ps t := by
  obtain ⟨v, hv, hh⟩ := held_next h h0
  obtain ⟨t, ht, hh⟩ := held_ticks hh
  exact ⟨t, (run_succ hv 82).trans ht, hh⟩

/-- A SCHED_TICK that comes before the deadline, or finds no attempts left while Sending, changes nothing. -/
theorem held_schedTick {s : State} {r : BitVec 3} {a n : Nat} {tx : TxState} {ps : List Issue}
    (h : Held r a tx (Issue.schedTickAt (a + n) :: ps) s) (hn : n < 100000) (hr : r ≠ 0#3 ∨ tx = .sending) :
    ∃ v, step s = .next v ∧ Held r a tx ps v := by
  obtain ⟨h1, h2, h3, h4, h5, h6, h7, h8⟩ := h
  have hd := (due_after a n s.block (by omega) h3 h4).trans (decide_eq_false (by omega))
  refine ⟨_, step_schedTickAt h7, ?_⟩
  have hb : (schedTickOp Config.hw ((a + n) % 2 ^ Config.hw.clkW) s.block).1 = s.block := by
    rcases schedTickOp_cases Config.hw ((a + n) % 2 ^ Config.hw.clkW) s.block with
      ⟨_, a⟩ | ⟨_, a, b, _⟩ | ⟨_, _, _, a⟩ | ⟨_, _, _, a⟩ | ⟨_, _, a, _⟩
    · rw [a]
    · rcases hr with hr | hr
      · exact absurd (h2.symm.trans a) hr
      · rw [hr, b] at h6; cases h6
    · rw [a]
    · rw [a]
    · rw [hd] at a; cases a
  simp only [Held, finish_block, finish_issues, hb]
  exact ⟨h1, h2, h3, h4, h5, h6, trivial, h8⟩

/-- A TX_STATUS and a PIN_CLEAR in Idle leave the schedule. -/
theorem held_others {s : State} {r : BitVec 3} {a : Nat} {ps : List Issue}
    (h : Held r a .idle (encode .txStatus :: encode .pinClear :: ps) s) : ∃ t, run 2 s = .next t ∧ Held r a .idle ps t := by
  obtain ⟨h1, h2, h3, h4, h5, h6, h7, _⟩ := h
  have d1 : decode (encode .txStatus) = .ok .txStatus := by decide +kernel
  have d2 : decode (encode .pinClear) = .ok .pinClear := by decide +kernel
  refine ⟨_, by unfold run step; rw [h7]; simp only [d1, exec_txStatus]; unfold run step;
                simp only [finish_issues, d2, exec_pinClear]; rfl, ?_⟩
  exact ⟨h1, h2, h3, h4, h5, h6, rfl, fun h => TxState.noConfusion h⟩

/-- Five slots T_ATTEMPT apart: a TX_STATUS, a PIN_CLEAR and an early SCHED_TICK follow the first Waveform, and a SCHED_TICK
falls into the last one. -/
def slots : List (Nat × List Issue) :=
  [(0, List.replicate 82 Issue.tick ++ [encode .txStatus, encode .pinClear, Issue.schedTickAt 99999]),
    (100000, List.replicate 82 Issue.tick), (200000, List.replicate 82 Issue.tick),
    (300000, List.replicate 82 Issue.tick), (400000, Issue.schedTickAt 450000 :: List.replicate 82 Issue.tick)]

theorem slots_issues (tEnd : Nat) : scheduleIssues slots ++ [Issue.schedTickAt tEnd] =
    Issue.schedTickAt 0 :: (List.replicate 82 Issue.tick ++ (encode .txStatus :: encode .pinClear ::
      Issue.schedTickAt (0 + 99999) :: Issue.schedTickAt (0 + 100000) :: (List.replicate 82 Issue.tick ++
      (Issue.schedTickAt (100000 + 100000) :: (List.replicate 82 Issue.tick ++
      (Issue.schedTickAt (200000 + 100000) :: (List.replicate 82 Issue.tick ++
      (Issue.schedTickAt (300000 + 100000) :: Issue.schedTickAt (400000 + 50000) :: (List.replicate 82 Issue.tick ++
      [Issue.schedTickAt tEnd])))))))))  := by
  simp only [scheduleIssues, slots, List.flatMap_cons, List.flatMap_nil, List.cons_append, List.append_assoc,
    List.nil_append]

/-- Where the schedule is Idle: before each of the six SCHED_TICKs; and Sending before the SCHED_TICK inside the last. -/
theorem slots_run (s : State) (hs : s = st (armed Config.hw 0) (scheduleIssues slots ++ [Issue.schedTickAt 500000])) :
    (∃ u, run 86 s = .next u ∧ u.block.txState = .idle) ∧ (∃ u, run 169 s = .next u ∧ u.block.txState = .idle) ∧
      (∃ u, run 252 s = .next u ∧ u.block.txState = .idle) ∧ (∃ u, run 335 s = .next u ∧ u.block.txState = .idle) ∧
      (∃ u, run 336 s = .next u ∧ u.block.txState = .sending) ∧ (∃ u, run 419 s = .next u ∧ u.block.txState = .idle) := by
  have hi : s.issues = _ := (congrArg State.issues hs).trans (slots_issues 500000)
  obtain ⟨a, ha, ga⟩ := held_attempt (s := s) (r := 5#3) (by rw [hs]; rfl) (by rw [hs]; rfl) (by decide) (by rw [hs]; rfl)
    (by rw [hs]; rfl) (by rw [hs]; rfl) hi
  obtain ⟨b, hb, gb⟩ := held_ticks ga
  obtain ⟨c, hc, gc⟩ := held_others gb
  obtain ⟨d, hd, gd⟩ := held_schedTick gc (by decide) (.inl (by decide))
  obtain ⟨e, he, ge⟩ := held_slot gd (by decide)
  obtain ⟨f, hf, gf⟩ := held_slot ge (by decide)
  obtain ⟨g, hg, gg⟩ := held_slot gf (by decide)
  obtain ⟨h, hh, gh⟩ := held_next gg (by decide)
  obtain ⟨i, hi, gi⟩ := held_schedTick gh (by decide) (.inr rfl)
  obtain ⟨j, hj, gj⟩ := held_ticks gi
  have r0 : run 86 s = .next d :=
    (run_succ ha 85).trans ((run_add (k := 3) hb).trans ((run_add (k := 1) hc).trans (run_succ hd 0)))
  have r1 : run 169 s = .next e := (run_add (k := 83) r0).trans he
  have r2 : run 252 s = .next f := (run_add (k := 83) r1).trans hf
  have r3 : run 335 s = .next g := (run_add (k := 83) r2).trans hg
  have r4 : run 336 s = .next h := (run_add (k := 1) r3).trans (run_succ hh 0)
  have r5 : run 419 s = .next j := (run_add (k := 83) r4).trans ((run_succ hi 82).trans hj)
  exact ⟨⟨d, r0, gd.2.2.2.2.2.1⟩, ⟨e, r1, ge.2.2.2.2.2.1⟩, ⟨f, r2, gf.2.2.2.2.2.1⟩, ⟨g, r3, gg.2.2.2.2.2.1⟩,
    ⟨h, r4, gh.2.2.2.2.2.1⟩, ⟨j, r5, gj.2.2.2.2.2.1⟩⟩

theorem slots_lengths : (List.range 6).map (fun j => (scheduleIssues (slots.take j)).length) =
    [0, 86, 169, 252, 335, 419] := by decide +kernel

/-- The issues between, by what they decode to: no SCHED_TICK but the two. -/
theorem slots_between (j k : Nat) (x : Nat × List Issue) (q : Issue) (now : Nat) (hx : slots[j]? = some x)
    (hq : x.2[k]? = some q) (hd : decode q = .ok (.schedTick now)) :
    (j = 0 ∧ x.1 = 0 ∧ q = Issue.schedTickAt 99999) ∨ (j = 4 ∧ k = 0) := by
  have ht : ∀ m i : Nat, (List.replicate m Issue.tick)[i]? ≠ some q := by
    intro m i h
    rw [List.eq_of_mem_replicate (List.mem_of_getElem? h), decode_tick] at hd
    cases hd
  match j, hx with
  | 0, hx =>
    obtain rfl : _ = x := Option.some.inj hx
    have hm := List.mem_of_getElem? hq
    rcases List.mem_append.1 hm with h | h
    · rw [List.eq_of_mem_replicate h, decode_tick] at hd; cases hd
    · rcases List.mem_cons.1 h with rfl | h
      · exact absurd hd (by rw [show decode (encode .txStatus) = .ok .txStatus by decide +kernel]; exact fun h => by cases h)
      · rcases List.mem_cons.1 h with rfl | h
        · exact absurd hd (by rw [show decode (encode .pinClear) = .ok .pinClear by decide +kernel]; exact fun h => by cases h)
        · exact .inl ⟨rfl, rfl, List.mem_singleton.1 h⟩
  | 1, hx | 2, hx | 3, hx =>
    obtain rfl : _ = x := Option.some.inj hx
    exact absurd hq (ht _ _)
  | 4, hx =>
    obtain rfl : _ = x := Option.some.inj hx
    cases k with
    | zero => exact .inr ⟨rfl, rfl⟩
    | succ k => exact absurd hq (ht _ k)
  | j + 5, hx => exact absurd hx (by simp [slots])

theorem witness_FullScheduleToleratesInterleavedIssues :
    let s := st (armed Config.hw 0) (scheduleIssues slots ++ [Issue.schedTickAt 500000])
    s.Inv ∧ s.block.sActive = true ∧ s.block.sRemain = 5#3 ∧ s.block.sDue = true ∧ s.block.sLen.toNat ≤ 8 ∧
      slots.length = 5 ∧
      (∀ j a b, slots[j]? = some a → slots[j + 1]? = some b → a.1 + 100000 ≤ b.1 ∧ b.1 < a.1 + 2 ^ Config.hw.clkW) ∧
      (∀ x ∈ slots, ∀ p ∈ x.2, p.keepsArmed = true) ∧
      s.issues = scheduleIssues slots ++ Issue.schedTickAt 500000 :: [] ∧
      (∀ j, j ≤ 5 → ∀ u, run (scheduleIssues (slots.take j)).length s = .next u → u.block.txState = .idle) ∧
      (∀ j x k q now u, slots[j]? = some x → x.2[k]? = some q → decode q = .ok (.schedTick now) →
        run ((scheduleIssues (slots.take j)).length + 1 + k) s = .next u →
        u.block.txState ≠ .idle ∨ (j < 4 ∧ x.1 ≤ q.clock ∧ q.clock < x.1 + 100000)) := by
  intro s
  obtain ⟨⟨u1, r1, i1⟩, ⟨u2, r2, i2⟩, ⟨u3, r3, i3⟩, ⟨u4, r4, i4⟩, ⟨u5, r5, i5⟩, ⟨u6, r6, i6⟩⟩ := slots_run s rfl
  have hl : ∀ j n, [0, 86, 169, 252, 335, 419][j]? = some n → (scheduleIssues (slots.take j)).length = n := by
    intro j n h
    rw [← slots_lengths, List.getElem?_map] at h
    obtain ⟨i, hi, hn⟩ := Option.map_eq_some_iff.1 h
    obtain ⟨_, hi⟩ := List.getElem?_eq_some_iff.1 hi
    rw [List.getElem_range] at hi
    rw [hi]; exact hn
  refine ⟨armed_sound 0 .idle (by decide), rfl, rfl, rfl, by decide, rfl, ?_, by decide +kernel, rfl, ?_, ?_⟩
  · have W := clock_range
    intro j a b ha hb
    match j, ha, hb with
    | 0, ha, hb | 1, ha, hb | 2, ha, hb | 3, ha, hb =>
      obtain rfl : _ = a := Option.some.inj ha
      obtain rfl : _ = b := Option.some.inj hb
      exact ⟨by decide, by simp only; omega⟩
    | j + 4, _, hb => exact absurd hb (by simp [slots])
  · intro j hj u hu
    have key : ∀ n v, (scheduleIssues (slots.take j)).length = n → run n s = .next v → v.block.txState = .idle →
        u.block.txState = .idle := by
      intro n v hn hv hi
      rw [hn, hv] at hu
      rw [← Host.Outcome.next.inj hu]; exact hi
    obtain rfl | rfl | rfl | rfl | rfl | rfl : j = 0 ∨ j = 1 ∨ j = 2 ∨ j = 3 ∨ j = 4 ∨ j = 5 := by omega
    · exact key 0 s (hl 0 _ rfl) (run_zero s) rfl
    · exact key 86 u1 (hl 1 _ rfl) r1 i1
    · exact key 169 u2 (hl 2 _ rfl) r2 i2
    · exact key 252 u3 (hl 3 _ rfl) r3 i3
    · exact key 335 u4 (hl 4 _ rfl) r4 i4
    · exact key 419 u6 (hl 5 _ rfl) r6 i6
  · intro j x k q now u hx hq hd hu
    rcases slots_between j k x q now hx hq hd with ⟨rfl, h, rfl⟩ | ⟨rfl, rfl⟩
    · exact .inr ⟨by decide, by rw [h]; exact Nat.zero_le _, by rw [h]; decide⟩
    · rw [hl 4 _ rfl, r5] at hu
      cases hu
      exact .inl (by rw [i5]; decide)

/-- A SCHED_TICK on a packet of 9 bytes, in Idle and while another Waveform is in flight. -/
theorem witness_UnencodableScheduleIsKeptByEveryStep :
    (let s := st (armed Config.hw 9) [Issue.schedTickAt 0]
     s.Inv ∧ s.block.sActive = true ∧ s.block.sRemain ≠ 0#3 ∧ 9 ≤ s.block.sLen.toNat ∧ s.block.txState = .idle ∧
       (Issue.schedTickAt 0).isArm = false ∧ decode (Issue.schedTickAt 0) ≠ .ok .schedCancel ∧
       decode (Issue.schedTickAt 0) ≠ .ok .txStart ∧ ∃ t, step s = .next t) ∧
    (let s := st { sending with sLen := 9#8 } [Issue.schedTickAt 0]
     s.Inv ∧ s.block.sActive = true ∧ s.block.sRemain ≠ 0#3 ∧ 9 ≤ s.block.sLen.toNat ∧ ∃ t, step s = .next t) :=
  ⟨⟨armed_sound 9 .idle (by decide), rfl, by decide, by decide, rfl, by decide +kernel, by decide +kernel,
      by decide +kernel, _, step_schedTickAt rfl⟩,
    ⟨⟨sending_shape.encBuf, sending_shape.txBuf, sending_shape.sPkt⟩, sending_sound.encLen_le, sending_sound.txLen_le,
      sending_sound.staged, sending_sound.active, sending_sound.cursor_lt, sending_sound.cursor_rest,
      sending_sound.pin_rest, sending_sound.remain_le, sending_sound.inactive, sending_sound.last_lt⟩,
    rfl, by decide, by decide, _, step_schedTickAt rfl⟩

/-- A SCHED_TICK on a packet of 9 bytes. -/
theorem witness_UnencodablePacketNeverReachesTheAir :
    let s := st (armed Config.hw 9) [Issue.schedTickAt 0]
    s.Inv ∧ s.block.sActive = true ∧ s.block.sRemain ≠ 0#3 ∧ 9 ≤ s.block.sLen.toNat ∧ s.block.txState = .idle ∧
      (∀ p ∈ s.issues.take 1, p.isArm = false ∧ decode p ≠ .ok .schedCancel ∧ decode p ≠ .ok .txStart) ∧
      ∃ t, run 1 s = .next t :=
  ⟨armed_sound 9 .idle (by decide), rfl, by decide, by decide, rfl, by decide +kernel, _, rfl⟩

theorem witness_ElapsedIsTrueTimeUnderTheClockLaw :
    2 ^ 32 - 50000 ≤ 2 ^ 32 + 50000 ∧ 2 ^ 32 + 50000 < (2 ^ 32 - 50000) + 2 ^ cfg.clkW := by decide +kernel

/-- One unit before the deadline. -/
theorem witness_AttemptNeverComesEarly :
    let s := st { armed Config.hw 1 with sDue := false } [Issue.schedTickAt 99999]
    s.issues = Issue.schedTickAt 99999 :: [] ∧ (Issue.schedTickAt 99999).ctx = .foreground ∧
      (Issue.schedTickAt 99999).cmd = 0x0007#16 ∧ s.block.sDue = false ∧
      s.block.sLast = 0 % 2 ^ Config.hw.clkW ∧ 0 ≤ (Issue.schedTickAt 99999).clock ∧
      (Issue.schedTickAt 99999).clock < 0 + 100000 :=
  ⟨rfl, rfl, rfl, rfl, (Nat.zero_mod _).symm, by decide, by decide⟩

theorem witness_StatusQueriesAreIdempotent :
    ∃ t u, exec .schedStatus (st sending []) = .next t ∧ exec .schedStatus t = .next u := ⟨_, _, rfl, rfl⟩

theorem witness_OnlyListedWritersChangeAField :
    (∃ t, exec .pinClear (st sending []) = .next t) ∧ (∀ d, Instr.pinClear ≠ .encode d) ∧
      (∀ n, Instr.pinClear ≠ .schedTick n) ∧ (∀ d, Instr.pinClear ≠ .schedArm d) ∧ Instr.pinClear ≠ .txStart ∧
      Instr.pinClear ≠ .txTick ∧ Instr.pinClear ≠ .schedCancel ∧ Instr.txStatus ≠ .pinClear ∧
      ∃ t, exec .txStatus (st sending []) = .next t :=
  ⟨⟨_, rfl⟩, by simp, by simp, by simp, by simp, by simp, by simp, by simp, ⟨_, rfl⟩⟩

theorem witness_StepKeepsTheStateSound :
    (st sending [Issue.tick]).Inv ∧ ∃ t, step (st sending [Issue.tick]) = .next t := ⟨sending_sound, _, rfl⟩

/-- L = 0 and L = 8. -/
theorem witness_InactiveSchedulerCanStillBeSending : ([] : List Byte).length ≤ 8 ∧ (List.replicate 8 0#8).length ≤ 8 := by
  decide

/-- Two reset blocks that differ in every unspecified field. -/
theorem witness_UnspecifiedResetContentsAreNeverObserved :
    let b := Block.resetFor Config.hw
    let b' : Block := { b with
      encBuf := List.replicate 224 .high, encLen := 255#8, txBuf := List.replicate 224 .high, txLen := 255#8,
      sLast := 7, sPkt := List.replicate 255 0xFF#8, sLen := 255#8 }
    b.Shape Config.hw ∧ b'.Shape Config.hw ∧ b.SpecifiedReset ∧ b'.SpecifiedReset :=
  ⟨⟨List.length_replicate, List.length_replicate, List.length_replicate⟩,
    ⟨List.length_replicate, List.length_replicate, List.length_replicate⟩,
    ⟨rfl, rfl, rfl, rfl, rfl, rfl, rfl⟩, ⟨rfl, rfl, rfl, rfl, rfl, rfl, rfl⟩⟩

/-- Two reset blocks; and two blocks with a Waveform in flight that differ in the staged buffer and in S_LAST, before a tick
and before a refused word. -/
theorem witness_AlikeBlocksStayAlike :
    (Block.resetFor Config.hw).SpecifiedReset ∧ ({ Block.resetFor Config.hw with sLast := 7 } : Block).SpecifiedReset ∧
    (let b : Block := { sending with encBuf := List.replicate 224 .high, encLen := 255#8, sLast := 7 }
     sending.Shape Config.hw ∧ b.Shape Config.hw ∧ sending.Alike b ∧
       (∃ t, step ⟨sending, [Issue.tick], none⟩ = .next t) ∧
       ∃ e, step ⟨sending, [issueOf .foreground 0x0000 [] 0], none⟩ = .refused e) :=
  ⟨⟨rfl, rfl, rfl, rfl, rfl, rfl, rfl⟩, ⟨rfl, rfl, rfl, rfl, rfl, rfl, rfl⟩, sending_shape,
    ⟨List.length_replicate, sending_shape.txBuf, sending_shape.sPkt⟩,
    ⟨rfl, rfl, rfl, rfl, rfl, rfl, rfl, fun h => Bool.noConfusion h,
      fun _ => ⟨rfl, rfl, by decide, by rw [sending_shape.txBuf]; decide⟩, fun _ => ⟨rfl, rfl⟩,
      fun _ h => Bool.noConfusion h⟩,
    ⟨_, step_tick rfl⟩, _, rfl⟩

/-- L = 8. -/
theorem witness_EncodableWaveformEndsBeforeTheDeadline : levelCount Config.hw 8 ≤ Config.hw.cap := by decide

end Sys2Proof.Tests
end

/-! The decoder's acceptance conditions read back as conditions on the fields of the command word and the context
(30_encoding.md R52, R53, R57, R58), and from them the refusals of R56 and R57. -/

namespace Sys2Proof

/-! What an operation's OP value says about it: the rows of the opcode table (30_encoding.md R53). -/

theorem Instr.op_range (i : Instr) : 1 ≤ i.op.toNat ∧ i.op.toNat ≤ 9 := by
  cases i <;> simp [Instr.op]

theorem Instr.takesData_eq_true_iff (i : Instr) : i.takesData = true ↔ i.op = 1#4 ∨ i.op = 5#4 := by
  cases i <;> simp [Instr.takesData, Instr.op]

theorem Instr.context_eq_interrupt_iff (i : Instr) : i.context = .interrupt ↔ i.op = 4#4 := by
  cases i <;> simp [Instr.context, Instr.op]

/-! The decoder, test by test. -/

theorem selectOp_op {c : Config} {p : Issue} {i : Instr} (h : selectOp c p = some i) : i.op = opField p.cmd := by
  unfold selectOp at h
  split at h <;> cases h
  all_goals
    rename_i hop
    exact BitVec.eq_of_toNat_eq hop.symm

/-- An operation is decoded exactly when every test of 30_encoding.md R58 passes. -/
theorem decodeFor_eq_ok_iff (c : Config) (p : Issue) (i : Instr) :
    decodeFor c p = .ok i ↔
      rsvField p.cmd = 0#4 ∧ selectOp c p = some i ∧ ¬ (i.takesData = false ∧ lenField p.cmd ≠ 0#8) ∧
        p.ctx = i.context := by
  constructor
  · intro h
    unfold decodeFor at h
    split at h
    case isTrue => cases h
    case isFalse hrsv =>
      split at h
      case h_1 => cases h
      case h_2 j hsel =>
        split_ifs at h with hlen hctx
        cases h
        exact ⟨not_not.mp hrsv, hsel, hlen, not_not.mp hctx⟩
  · rintro ⟨hrsv, hsel, hlen, hctx⟩
    rw [decodeFor, if_neg (not_not.mpr hrsv), hsel]
    simp only [hctx, ne_eq, not_true_eq_false, if_false, if_neg hlen]

/-- The acceptance conditions of 30_encoding.md R58, in the word's fields alone. -/
structure AcceptedFields (p : Issue) : Prop where
  rsv : rsvField p.cmd = 0#4
  opLow : 1 ≤ (opField p.cmd).toNat
  opHigh : (opField p.cmd).toNat ≤ 9
  len : opField p.cmd = 1#4 ∨ opField p.cmd = 5#4 ∨ lenField p.cmd = 0#8
  ctx : p.ctx = .interrupt ↔ opField p.cmd = 4#4

theorem acceptedFields_of_decode {p : Issue} {i : Instr} (h : decode p = .ok i) : AcceptedFields p := by
  obtain ⟨hrsv, hsel, hlen, hctx⟩ := (decodeFor_eq_ok_iff _ _ _).mp h
  have hop : i.op = opField p.cmd := selectOp_op hsel
  exact {
    rsv := hrsv
    opLow := hop ▸ i.op_range.1
    opHigh := hop ▸ i.op_range.2
    len := by
      rw [← hop, ← or_assoc, ← Instr.takesData_eq_true_iff]
      simpa [Classical.or_iff_not_imp_left] using hlen
    ctx := by rw [hctx, Instr.context_eq_interrupt_iff, hop] }

end Sys2Proof

namespace Sys2Proof.Machine

/-- A word outside the acceptance conditions is refused by the step, with the block's answer of 30_encoding.md R56. -/
theorem step_refused_of_not_acceptedFields {s : State} {p : Issue} {rest : List Issue} (hs : s.issues = p :: rest)
    (hp : ¬ AcceptedFields p) :
    ∃ e, step s = .refused (.commandRefused e p.cmd p.ctx) ∧
      (Refusal.commandRefused e p.cmd p.ctx).response = ⟨.refused, 0#8⟩ := by
  cases hd : decode p with
  | error e => exact ⟨e, by simp [step, hs, hd], rfl⟩
  | ok i => exact absurd (acceptedFields_of_decode hd) hp

/-- Settles O6: each of the three reserved cases contradicts one of the acceptance conditions. -/
theorem reservedWordIsRefused : Obligations.ReservedWordIsRefused := by
  intro s p rest hs hreserved
  have hp : ¬ AcceptedFields p := by
    intro hacc
    obtain hop0 | hop10 | hrsv | ⟨hne1, hne5, hlen⟩ := hreserved
    · exact absurd hacc.opLow (by rw [opField, hop0]; decide)
    · exact absurd hacc.opHigh (Nat.not_le.mpr hop10)
    · exact hrsv hacc.rsv
    · exact hacc.len.elim hne1 fun h => h.elim hne5 hlen
  obtain ⟨e, hstep, hresp⟩ := step_refused_of_not_acceptedFields hs hp
  exact ⟨e, hstep, hresp, rfl⟩

/-- Settles O7: an accepted word is TX_TICK exactly in the interrupt context. -/
theorem wrongContextIsRefused : Obligations.WrongContextIsRefused := by
  intro s p rest hs hwrong
  refine step_refused_of_not_acceptedFields hs fun hacc => ?_
  obtain ⟨hop, hfg⟩ | ⟨hop, hint⟩ := hwrong
  · have hint : p.ctx = .interrupt := hacc.ctx.mpr hop
    exact Context.noConfusion (hfg.symm.trans hint)
  · exact hop (hacc.ctx.mp hint)

end Sys2Proof.Machine

/-! The scheduler's operations that write S_ACTIVE or report it (40_scheduler.md R65, R67, R70): what their words decode to,
and what they do to S_ACTIVE. -/

namespace Sys2Proof

/-! The words of the operations without operands (30_encoding.md R52, R53). -/

theorem Instr.dataOperand_eq_nil {i : Instr} (h : i.takesData = false) : i.dataOperand = [] := by
  cases i <;> simp_all [Instr.takesData, Instr.dataOperand]

/-- An operation is decoded from its own word, in its own context, whenever its OP and the ports select it. -/
theorem decode_of_encodeWord {p : Issue} {i : Instr} (hctx : p.ctx = i.context) (hcmd : p.cmd = encodeWord i)
    (hsel : selectOp Config.hw p = some i) : decode p = .ok i := by
  obtain ⟨-, hrsv, hlen⟩ := Laws.EncodedFields.fields_of_word (BitVec.ofNat 8 i.dataOperand.length) i.op
  refine (decodeFor_eq_ok_iff _ _ _).mpr ⟨hcmd ▸ hrsv, hsel, fun ⟨hdata, hne⟩ => hne ?_, hctx⟩
  calc lenField p.cmd
    _ = BitVec.ofNat 8 i.dataOperand.length := by rw [hcmd]; exact hlen
    _ = 0#8 := by rw [Instr.dataOperand_eq_nil hdata]; rfl

theorem decode_schedCancel {p : Issue} (hctx : p.ctx = .foreground) (hcmd : p.cmd = 0x0006#16) :
    decode p = .ok .schedCancel :=
  decode_of_encodeWord hctx hcmd (by simp [selectOp, opField, hcmd])

theorem decode_schedStatus {p : Issue} (hctx : p.ctx = .foreground) (hcmd : p.cmd = 0x0008#16) :
    decode p = .ok .schedStatus :=
  decode_of_encodeWord hctx hcmd (by simp [selectOp, opField, hcmd])

end Sys2Proof

namespace Sys2Proof.Machine

/-! The fields of SCHED_STATUS's RESULT (40_scheduler.md R70). -/

theorem schedStatusResult_eq_concat (r : BitVec 3) (a : Bool) :
    schedStatusResult r a = (r.concat a).setWidth 8 := rfl

@[simp] theorem schedStatusResult_active (r : BitVec 3) (a : Bool) : (schedStatusResult r a).getLsbD 0 = a := by
  simp [schedStatusResult_eq_concat]

@[simp] theorem schedStatusResult_remain (r : BitVec 3) (a : Bool) :
    (schedStatusResult r a).extractLsb' 1 3 = r := by
  apply BitVec.eq_of_getLsbD_eq
  intro k hk
  simp [schedStatusResult_eq_concat, hk, Nat.add_comm 1 k, show k + 1 < 8 by omega, BitVec.getLsbD_concat_succ]

@[simp] theorem schedStatusResult_zeros (r : BitVec 3) (a : Bool) :
    (schedStatusResult r a).extractLsb' 4 4 = 0#4 := by
  apply BitVec.eq_of_getLsbD_eq
  intro k hk
  simp [schedStatusResult_eq_concat]

/-! What the operations do to S_ACTIVE. -/

@[simp] theorem attemptOp_sActive (c : Config) (now : Nat) (b : Block) :
    (attemptOp c now b).1.sActive = b.sActive := by
  unfold attemptOp
  split <;> simp

@[simp] theorem schedArmOp_sActive (c : Config) (d : List Byte) (b : Block) : (schedArmOp c d b).sActive = true := rfl

/-- With no attempts left, a SCHED_TICK of an active scheduler deactivates in Idle and else does nothing
(40_scheduler.md R67). -/
theorem schedTickOp_of_exhausted (c : Config) (now : Nat) {b : Block} (ha : b.sActive = true) (hr : b.sRemain = 0#3) :
    schedTickOp c now b =
      if b.txState = .idle then ({ b with sActive := false }, ⟨.ok, 4#8⟩) else (b, ⟨.ok, 0#8⟩) := by
  obtain ⟨hf, _⟩ | ⟨_, _, hi, h⟩ | ⟨_, _, hi, h⟩ | ⟨_, hne, _⟩ | ⟨_, hne, _⟩ := schedTickOp_cases c now b
  · exact Bool.noConfusion (ha.symm.trans hf)
  · rw [h, if_pos hi]
  · rw [h, if_neg hi]
  · exact absurd hr hne
  · exact absurd hr hne

/-- A SCHED_TICK clears S_ACTIVE only when no attempts remain and the transmitter is Idle. -/
theorem schedTickOp_clears_sActive {c : Config} {now : Nat} {b : Block} (ha : b.sActive = true)
    (hc : (schedTickOp c now b).1.sActive = false) : b.sRemain = 0#3 ∧ b.txState = .idle := by
  obtain ⟨_, h⟩ | ⟨_, hr, hi, _⟩ | ⟨_, _, _, h⟩ | ⟨_, _, _, h⟩ | ⟨_, _, _, h⟩ := schedTickOp_cases c now b
  case inr.inl => exact ⟨hr, hi⟩
  all_goals simp [h, ha] at hc

/-- An operation that clears S_ACTIVE is SCHED_CANCEL, or a SCHED_TICK in Idle with no attempts left. -/
theorem exec_clears_sActive {i : Instr} {s t : State} (h : exec i s = .next t) (ha : s.block.sActive = true)
    (hc : t.block.sActive = false) :
    i = .schedCancel ∨ (∃ now, i = .schedTick now ∧ s.block.sRemain = 0#3 ∧ s.block.txState = .idle) := by
  cases i with
  | schedCancel => exact .inl rfl
  | schedTick now =>
    cases h
    exact .inr ⟨now, rfl, schedTickOp_clears_sActive ha hc⟩
  | encode | txStart | txStatus | txTick | schedArm | schedStatus | pinClear =>
    cases h
    simp [ha] at hc

/-- Settles O37: the first part is the SCHED_TICK with no attempts left, the second goes over the operations. -/
theorem deactivationOnlyByAnIdleSchedTick : Obligations.DeactivationOnlyByAnIdleSchedTick := by
  refine ⟨fun s now ha hr => ⟨_, exec_schedTick now s, rfl, ?_⟩, fun _ _ _ => exec_clears_sActive⟩
  rw [finish_block, finish_response, schedTickOp_of_exhausted _ _ ha hr]
  constructor
  · intro hi
    simp [hi]
  · intro hi
    simp [hi]

/-- Settles O34: the operation's equation is the statement, in every state. -/
theorem schedCancelDeactivates : Obligations.SchedCancelDeactivates :=
  ⟨fun _ hctx hcmd => decode_schedCancel hctx hcmd, fun s => ⟨_, exec_schedCancel s, rfl, rfl, rfl⟩⟩

/-- Settles O35: RESULT is `schedStatusResult`, whose fields are read back one by one. -/
theorem schedStatusReportsTheSchedule : Obligations.SchedStatusReportsTheSchedule :=
  ⟨fun _ hctx hcmd => decode_schedStatus hctx hcmd, fun s =>
    ⟨_, _, exec_schedStatus s, rfl, rfl, rfl, schedStatusResult_active _ _, schedStatusResult_remain _ _,
      schedStatusResult_zeros _ _⟩⟩

end Sys2Proof.Machine

/-! When ENCODE overflows, and what an overflow leaves (41_waveform_encoder.md R78; 60_exceptions.md R100). -/

namespace Sys2Proof.Machine

/-- ENCODE answers OVERFLOW exactly when the Waveform would not fit. -/
theorem encodeOp_overflow_iff (c : Config) (d : List Byte) (b : Block) :
    (encodeOp c d b).2 = ⟨.overflow, 0#8⟩ ↔ c.cap < levelCount c d.length := by
  obtain ⟨hover, h⟩ | ⟨hfits, h⟩ := encodeOp_cases c d b
  · simp [h, hover]
  · simp [h, Nat.not_lt.mpr hfits]

/-- A rejected ENCODE clears ENC_VALID and leaves every other field. -/
theorem encodeOp_block_of_overflow {c : Config} {d : List Byte} {b : Block} (hover : c.cap < levelCount c d.length) :
    (encodeOp c d b).1 = { b with encValid := false } := by
  obtain ⟨_, h⟩ | ⟨hfits, _⟩ := encodeOp_cases c d b
  · rw [h]
  · exact absurd hfits (Nat.not_le.mpr hover)

/-- Settles O14: this hardware's level count is 81 + 16 L and its capacity 224, which L first exceeds at 9. -/
theorem encodeRejectsExactlyOverCapacity : Obligations.EncodeRejectsExactlyOverCapacity := by
  intro s d
  have hrej : (s.finish (encodeOp Config.hw d s.block)).response = some ⟨.overflow, 0#8⟩ ↔
      224 < 81 + 16 * d.length := by
    simpa using encodeOp_overflow_iff Config.hw d s.block
  have hlen : 224 < 81 + 16 * d.length ↔ 9 ≤ d.length := by omega
  refine ⟨_, exec_encode d s, hrej, hrej.trans hlen, fun hover => ?_⟩
  exact encodeOp_block_of_overflow (by simpa using hover)

end Sys2Proof.Machine

/-! The transmitter's two operations from the foreground that start nothing, TX_STATUS and PIN_CLEAR, and the tick that
leaves JustCompleted (42_transmitter.md R89, R92, R96). -/

namespace Sys2Proof

theorem decode_txStatus {p : Issue} (hctx : p.ctx = .foreground) (hcmd : p.cmd = 0x0003#16) :
    decode p = .ok .txStatus :=
  decode_of_encodeWord hctx hcmd (by simp [selectOp, opField, hcmd])

theorem decode_pinClear {p : Issue} (hctx : p.ctx = .foreground) (hcmd : p.cmd = 0x0009#16) :
    decode p = .ok .pinClear :=
  decode_of_encodeWord hctx hcmd (by simp [selectOp, opField, hcmd])

end Sys2Proof

namespace Sys2Proof.Machine

/-- Of the tick's cases, JustCompleted leaves only the one that enters Idle (42_transmitter.md R89). -/
theorem txTickOp_of_justCompleted {b : Block} (hb : b.txState = .justCompleted) :
    txTickOp b = { b with txState := .idle } := by
  obtain ⟨hother, _⟩ | ⟨_, h⟩ | ⟨hother, _⟩ | ⟨hother, _⟩ := txTickOp_cases b
  case inr.inl => exact h
  all_goals exact absurd (hb.symm.trans hother) (by decide)

/-- Settles O24: the tick writes TX_STATE alone, so RF_PIN keeps the Low that the invariant gives it outside Sending
(42_transmitter.md R95). -/
theorem txTickLeavesJustCompleted : Obligations.TxTickLeavesJustCompleted := by
  intro s hjc
  have htick : txTickOp s.block = { s.block with txState := .idle } := txTickOp_of_justCompleted hjc
  refine ⟨_, exec_txTick s, rfl, rfl, htick, fun hinv => ?_⟩
  have hpin : s.block.rfPin = .low := hinv.pin_rest (by simp [hjc])
  rw [finish_block, htick]
  exact hpin

/-- Settles O26: the operation leaves the block as it is, and `txStatusResult` has the stated value in each state. -/
theorem txStatusReportsTheState : Obligations.TxStatusReportsTheState := by
  refine ⟨fun _ hctx hcmd => decode_txStatus hctx hcmd, fun s => ⟨_, exec_txStatus s, rfl, rfl, ?_⟩⟩
  rw [finish_response]
  cases s.block.txState with
  | idle => rfl
  | sending => rfl
  | justCompleted => rfl

/-- Settles O27: the operation's equation is the statement, in every state. -/
theorem pinClearDrivesThePinLow : Obligations.PinClearDrivesThePinLow :=
  ⟨fun _ hctx hcmd => decode_pinClear hctx hcmd, fun s => ⟨_, exec_pinClear s, rfl, rfl, rfl⟩⟩

end Sys2Proof.Machine

/-! The decoder and the encoder agree (30_encoding.md R52 to R54, R57, R58): the operation a word selects is settled by
its OP field and its operands, and a word by its fields. -/

namespace Sys2Proof

/-- An operation is selected exactly when the OP field is its own and the ports hold its operands. -/
theorem selectOp_eq_some_iff (c : Config) (p : Issue) (i : Instr) :
    selectOp c p = some i ↔
      opField p.cmd = i.op ∧ (i.takesData = true → p.dataBytes = i.dataOperand) ∧
        ∀ now, i = .schedTick now → p.now c = now := by
  constructor
  · intro h
    refine ⟨(selectOp_op h).symm, ?_⟩
    unfold selectOp at h
    split at h <;> cases h <;> simp [Instr.takesData, Instr.dataOperand]
  · rintro ⟨hop, hdata, hnow⟩
    cases i with
    | encode d => simp [selectOp, hop, Instr.op, show p.dataBytes = d from hdata rfl]
    | schedArm d => simp [selectOp, hop, Instr.op, show p.dataBytes = d from hdata rfl]
    | schedTick now => simp [selectOp, hop, Instr.op, hnow now rfl]
    | txStart | txStatus | txTick | schedCancel | schedStatus | pinClear => simp [selectOp, hop, Instr.op]

/-- An OP value of the table selects an operation. -/
theorem exists_selectOp {c : Config} {p : Issue} (hlow : 1 ≤ (opField p.cmd).toNat)
    (hhigh : (opField p.cmd).toNat ≤ 9) : ∃ i, selectOp c p = some i := by
  unfold selectOp
  generalize (opField p.cmd).toNat = n at hlow hhigh
  interval_cases n <;> exact ⟨_, rfl⟩

/-- The acceptance conditions of 30_encoding.md R58 suffice. -/
theorem decode_of_acceptedFields {p : Issue} (h : AcceptedFields p) : ∃ i, decode p = .ok i := by
  obtain ⟨i, hsel⟩ := exists_selectOp (c := Config.hw) h.opLow h.opHigh
  have hop : i.op = opField p.cmd := selectOp_op hsel
  refine ⟨i, (decodeFor_eq_ok_iff _ _ _).mpr ⟨h.rsv, hsel, fun ⟨hdata, hne⟩ => ?_, ?_⟩⟩
  · have hnot : ¬ (i.op = 1#4 ∨ i.op = 5#4) := by simp [← Instr.takesData_eq_true_iff, hdata]
    exact (or_assoc.mpr h.len).elim (hop ▸ hnot) hne
  · have hint : p.ctx = .interrupt ↔ i.context = .interrupt := by
      rw [h.ctx, Instr.context_eq_interrupt_iff, hop]
    cases hp : p.ctx <;> cases hi : i.context <;> simp_all

/-- Settles O3: the fields that acceptance needs are the fields that suffice for it. -/
theorem decoderAcceptsExactlyTheTable : Obligations.DecoderAcceptsExactlyTheTable := by
  intro p
  constructor
  · rintro ⟨i, hi⟩
    have h := acceptedFields_of_decode hi
    exact ⟨h.rsv, h.opLow, h.opHigh, h.len, h.ctx.symm⟩
  · rintro ⟨hrsv, hlow, hhigh, hlen, hctx⟩
    exact decode_of_acceptedFields ⟨hrsv, hlow, hhigh, hlen, hctx.symm⟩

/-! The ports of an operation's own issue. -/

theorem padTo_take (n : Nat) (d : List Byte) (h : d.length ≤ n) : (padTo n d).take d.length = d := by
  induction n generalizing d with
  | zero => simp [List.eq_nil_of_length_eq_zero (Nat.le_zero.mp h)]
  | succ n ih =>
    cases d with
    | nil => rfl
    | cons x xs => simp [padTo, ih xs (by simpa using h)]

/-- The data port of an operation's own issue shows its operand. -/
theorem dataBytes_encode {i : Instr} (h : i.dataOperand.length ≤ 255) : (encode i).dataBytes = i.dataOperand := by
  obtain ⟨-, -, hlen⟩ := Laws.EncodedFields.fields_of_word (BitVec.ofNat 8 i.dataOperand.length) i.op
  have hlenNat : (lenField (encode i).cmd).toNat = i.dataOperand.length := by
    rw [show lenField (encode i).cmd = _ from hlen, BitVec.toNat_ofNat]
    exact Nat.mod_eq_of_lt (by omega)
  rw [Issue.dataBytes, hlenNat]
  exact padTo_take 255 i.dataOperand h

/-- What well-formedness says of the operands (30_encoding.md R52, R54). -/
theorem Instr.wf_iff (i : Instr) :
    i.wf = true ↔ i.dataOperand.length ≤ 255 ∧ i.clockOperand < 2 ^ Config.hw.clkW := by
  cases i <;> simp [Instr.wf, Instr.wfFor, Instr.dataOperand, Instr.clockOperand]

/-- Settles O1: the operation's own word selects it, and its own ports show its operands. -/
theorem decodeOfEncodeIsTheOperation : Obligations.DecodeOfEncodeIsTheOperation := by
  intro i hwf
  obtain ⟨hdata, hclock⟩ := i.wf_iff.mp hwf
  obtain ⟨hop, -, -⟩ := Laws.EncodedFields.fields_of_word (BitVec.ofNat 8 i.dataOperand.length) i.op
  refine decode_of_encodeWord rfl rfl ((selectOp_eq_some_iff _ _ _).mpr ⟨hop, fun _ => dataBytes_encode hdata, ?_⟩)
  rintro now rfl
  exact Nat.mod_eq_of_lt hclock

/-- A command word with RSV = 0 is put together from its LEN and OP fields. -/
theorem word_of_fields {w : CmdWord} (h : rsvField w = 0#4) :
    (lenField w).setWidth 16 <<< 8 ||| (opField w).setWidth 16 = w := by
  apply BitVec.eq_of_getLsbD_eq
  intro k hk
  by_cases hop : k < 4
  · simp [opField, hop, show k < 8 by omega, hk]
  by_cases hrsv : k < 8
  · have hbit : (rsvField w).getLsbD (k - 4) = false := by simp [h]
    simp only [rsvField, BitVec.getLsbD_extractLsb', show k - 4 < 4 by omega, show 4 + (k - 4) = k by omega,
      decide_true, Bool.true_and] at hbit
    simp [opField, hop, hrsv, hbit]
  · simp [opField, lenField, hop, hrsv, hk, show k - 8 < 8 by omega, show 8 + (k - 8) = k by omega]

/-- The operands of a decoded operation have the length its word says. -/
theorem dataOperand_length_of_decode {p : Issue} {i : Instr} (h : decode p = .ok i) :
    i.dataOperand.length = (lenField p.cmd).toNat := by
  obtain ⟨-, hsel, hlen, -⟩ := (decodeFor_eq_ok_iff _ _ _).mp h
  obtain ⟨-, hdata, -⟩ := (selectOp_eq_some_iff _ _ _).mp hsel
  cases htd : i.takesData with
  | true =>
    rw [← hdata htd, Issue.dataBytes, List.length_take, Vector.length_toList]
    exact Nat.min_eq_left (by omega)
  | false =>
    have hzero : lenField p.cmd = 0#8 := by simpa [htd] using hlen
    rw [Instr.dataOperand_eq_nil htd, hzero]
    rfl

theorem wf_of_decode {p : Issue} {i : Instr} (h : decode p = .ok i) : i.wf = true := by
  obtain ⟨-, hsel, -, -⟩ := (decodeFor_eq_ok_iff _ _ _).mp h
  obtain ⟨-, -, hnow⟩ := (selectOp_eq_some_iff _ _ _).mp hsel
  refine i.wf_iff.mpr ⟨?_, ?_⟩
  · rw [dataOperand_length_of_decode h]
    omega
  · have hpos : 0 < 2 ^ Config.hw.clkW := Nat.two_pow_pos _
    cases i with
    | schedTick now => exact hnow now rfl ▸ Nat.mod_lt _ hpos
    | encode | txStart | txStatus | txTick | schedArm | schedCancel | schedStatus | pinClear => exact hpos

/-- Settles O2: the word is put together again from the fields the decoder has read. -/
theorem decodedOperationKeepsItsWord : Obligations.DecodedOperationKeepsItsWord := by
  intro p i h
  obtain ⟨hrsv, hsel, -, hctx⟩ := (decodeFor_eq_ok_iff _ _ _).mp h
  refine ⟨wf_of_decode h, ?_, hctx.symm⟩
  calc encodeWord i
    _ = (lenField p.cmd).setWidth 16 <<< 8 ||| (opField p.cmd).setWidth 16 := by
      rw [encodeWord, dataOperand_length_of_decode h, BitVec.ofNat_toNat, BitVec.setWidth_eq, selectOp_op hsel]
    _ = p.cmd := word_of_fields hrsv

/-! The words of the table, one by one. -/

theorem decode_txStart {p : Issue} (hctx : p.ctx = .foreground) (hcmd : p.cmd = 0x0002#16) :
    decode p = .ok .txStart :=
  decode_of_encodeWord hctx hcmd (by simp [selectOp, opField, hcmd])

theorem decode_txTick {p : Issue} (hctx : p.ctx = .interrupt) (hcmd : p.cmd = 0x0004#16) :
    decode p = .ok .txTick :=
  decode_of_encodeWord hctx hcmd (by simp [selectOp, opField, hcmd])

theorem decode_schedTick {p : Issue} (hctx : p.ctx = .foreground) (hcmd : p.cmd = 0x0007#16) :
    decode p = .ok (.schedTick (p.clock % 2 ^ Config.hw.clkW)) :=
  decode_of_encodeWord hctx (by simp [hcmd, encodeWord, Instr.dataOperand, Instr.op])
    (by simp [selectOp, opField, hcmd, Issue.now])

/-- An operation with data is decoded from its OP in the low byte of the word. -/
theorem decode_of_takesData {p : Issue} {i : Instr} (hdata : i.takesData = true) (hctx : p.ctx = i.context)
    (hcmd : p.cmd.extractLsb' 0 8 = i.op.setWidth 8) (hbytes : p.dataBytes = i.dataOperand) : decode p = .ok i := by
  have hlow : ∀ o : BitVec 4, (o.setWidth 8).extractLsb' 0 4 = o := by decide
  have hhigh : ∀ o : BitVec 4, (o.setWidth 8).extractLsb' 4 4 = 0#4 := by decide
  have hop : opField p.cmd = i.op := by
    calc opField p.cmd
      _ = (p.cmd.extractLsb' 0 8).extractLsb' 0 4 := (BitVec.extractLsb'_extractLsb'_of_le (by decide)).symm
      _ = i.op := by rw [hcmd, hlow]
  have hrsv : rsvField p.cmd = 0#4 := by
    calc rsvField p.cmd
      _ = (p.cmd.extractLsb' 0 8).extractLsb' 4 4 := (BitVec.extractLsb'_extractLsb'_of_le (by decide)).symm
      _ = 0#4 := by rw [hcmd, hhigh]
  have hsel : selectOp Config.hw p = some i := by
    refine (selectOp_eq_some_iff _ _ _).mpr ⟨hop, fun _ => hbytes, ?_⟩
    rintro now rfl
    cases hdata
  exact (decodeFor_eq_ok_iff _ _ _).mpr ⟨hrsv, hsel, by simp [hdata], hctx⟩

/-- Settles O4: the rows of the table, each by its word. -/
theorem everyOperationWordSelectsItsOperation : Obligations.EveryOperationWordSelectsItsOperation := fun _ =>
  ⟨decode_txTick, fun hctx =>
    ⟨fun hcmd => decode_of_takesData rfl hctx hcmd rfl, decode_txStart hctx, decode_txStatus hctx,
      fun hcmd => decode_of_takesData rfl hctx hcmd rfl, decode_schedCancel hctx, decode_schedTick hctx,
      decode_schedStatus hctx, decode_pinClear hctx⟩⟩

/-- Settles O5: the two worked issues are the encoder's own, and each bare word is closed. -/
theorem workedWordsDecode : Obligations.WorkedWordsDecode := by
  have hencode : decode (encode (.encode [0xA5])) = .ok (.encode [0xA5]) :=
    decodeOfEncodeIsTheOperation _ (by decide)
  have htick : decode (encode (.schedTick 100000)) = .ok (.schedTick 100000) :=
    decodeOfEncodeIsTheOperation _ (decide_eq_true Machine.hw_wellFormed.2.2.2.1)
  refine ⟨hencode, htick, ?_⟩
  decide

end Sys2Proof

/-! Every operation as a function of the block alone, and the step in its terms: what the statements about single steps
and about runs go through. -/

namespace Sys2Proof.Machine

/-- What an operation leaves in the block, and what it answers. -/
def effect : Instr → Block → Block × Response
  | .encode d, b => encodeOp Config.hw d b
  | .txStart, b => txStartOp b
  | .txStatus, b => (b, ⟨.ok, txStatusResult b.txState⟩)
  | .txTick, b => (txTickOp b, ⟨.ok, 0#8⟩)
  | .schedArm d, b => (schedArmOp Config.hw d b, ⟨.ok, 0#8⟩)
  | .schedCancel, b => ({ b with sActive := false, sRemain := 0#3 }, ⟨.ok, 0#8⟩)
  | .schedTick now, b => schedTickOp Config.hw now b
  | .schedStatus, b => (b, ⟨.ok, schedStatusResult b.sRemain b.sActive⟩)
  | .pinClear, b => ({ b with rfPin := .low }, ⟨.ok, 0#8⟩)

/-- `effect` is what `exec` does: the block and the response, the ports otherwise as they were. -/
theorem exec_eq_finish_effect (i : Instr) (s : State) : exec i s = .next (s.finish (effect i s.block)) := by
  cases i <;> rfl

theorem exec_eq_next_iff {i : Instr} {s t : State} : exec i s = .next t ↔ t = s.finish (effect i s.block) := by
  rw [exec_eq_finish_effect, Host.Outcome.next.injEq, eq_comm]

theorem step_of_nil {s : State} (h : s.issues = []) : step s = .next s := by
  simp [step, h]

theorem step_of_decode {s : State} {p : Issue} {rest : List Issue} {i : Instr} (hs : s.issues = p :: rest)
    (hp : decode p = .ok i) : step s = exec i { s with issues := rest } := by
  simp [step, hs, hp]

theorem step_of_refused {s : State} {p : Issue} {rest : List Issue} {e : DecodeError} (hs : s.issues = p :: rest)
    (hp : decode p = .error e) : step s = .refused (.commandRefused e p.cmd p.ctx) := by
  simp [step, hs, hp]

/-- A step of an accepted issue, in terms of the block. -/
theorem step_eq_next_effect {s : State} {p : Issue} {rest : List Issue} {i : Instr} (hs : s.issues = p :: rest)
    (hp : decode p = .ok i) : step s = .next ({ s with issues := rest }.finish (effect i s.block)) :=
  (step_of_decode hs hp).trans (exec_eq_finish_effect _ _)

/-- A step that answers idles, or runs the operation of the next issue on the block. -/
theorem step_effect_cases {s t : State} (h : step s = .next t) :
    (s.issues = [] ∧ t = s) ∨
    ∃ p rest i, s.issues = p :: rest ∧ decode p = .ok i ∧ t.issues = rest ∧ t.block = (effect i s.block).1 ∧
      t.response = some (effect i s.block).2 := by
  obtain ⟨hs, ht⟩ | ⟨p, rest, i, hs, hp, hexec⟩ := step_cases h
  · exact .inl ⟨hs, ht⟩
  · obtain rfl := exec_eq_next_iff.mp hexec
    exact .inr ⟨p, rest, i, hs, hp, rfl, rfl, rfl⟩

/-- Settles O8: the step's own equation for an accepted issue. -/
theorem stepRunsTheDecodedOperation : Obligations.StepRunsTheDecodedOperation := fun _ _ _ _ => step_of_decode

theorem decodeTableWord_eq_some_iff {nbits w : Nat} {i : Instr} :
    decodeTableWord nbits w = some i ↔ decode (issueOfWord nbits w) = .ok i := by
  unfold decodeTableWord
  cases decode (issueOfWord nbits w) <;> simp

/-- Settles O9: the word is the head of the issues, and taking it off gives the state back. -/
theorem wordIssuedNextRunsNext : Obligations.WordIssuedNextRunsNext := by
  intro s nbits w i h
  have hhead : (s.withFetchWord nbits w).issues = issueOfWord nbits w :: s.issues := rfl
  exact step_of_decode hhead (decodeTableWord_eq_some_iff.mp h)

/-- Settles O10: the step's own equation for no issue. -/
theorem nothingIssuedKeepsTheState : Obligations.NothingIssuedKeepsTheState := fun _ => step_of_nil

/-! The responses. -/

theorem attemptOp_status (c : Config) (now : Nat) (b : Block) : (attemptOp c now b).2.status = .ok := by
  obtain ⟨-, h⟩ | ⟨-, -, h⟩ | ⟨-, -, h⟩ := attemptOp_cases c now b <;> rw [h]

theorem schedTickOp_status (c : Config) (now : Nat) (b : Block) : (schedTickOp c now b).2.status = .ok := by
  obtain ⟨-, h⟩ | ⟨-, -, -, h⟩ | ⟨-, -, -, h⟩ | ⟨-, -, -, h⟩ | ⟨-, -, -, h⟩ := schedTickOp_cases c now b
  case inr.inr.inr.inr => rw [h, attemptOp_status]
  all_goals rw [h]

/-- An operation answers OK, or is ENCODE or TX_START with one of their errors (60_exceptions.md R98). -/
theorem effect_status_cases (i : Instr) (b : Block) :
    (effect i b).2.status = .ok ∨
    (∃ d, i = .encode d ∧ Config.hw.cap < levelCount Config.hw d.length ∧
      effect i b = ({ b with encValid := false }, ⟨.overflow, 0#8⟩)) ∨
    (i = .txStart ∧ b.txState ≠ .idle ∧ effect i b = (b, ⟨.busy, 0#8⟩)) ∨
    (i = .txStart ∧ b.encValid = false ∧ effect i b = (b, ⟨.invalid, 0#8⟩)) := by
  cases i with
  | encode d =>
    obtain ⟨hover, h⟩ | ⟨-, h⟩ := encodeOp_cases Config.hw d b
    · exact .inr (.inl ⟨d, rfl, hover, h⟩)
    · exact .inl (by rw [effect, h])
  | txStart =>
    obtain ⟨hbusy, h⟩ | ⟨-, hinvalid, h⟩ | ⟨-, -, h⟩ := txStartOp_cases b
    · exact .inr (.inr (.inl ⟨rfl, hbusy, h⟩))
    · exact .inr (.inr (.inr ⟨rfl, hinvalid, h⟩))
    · exact .inl (by rw [effect, h])
  | schedTick now => exact .inl (schedTickOp_status _ _ _)
  | txStatus | txTick | schedArm | schedCancel | schedStatus | pinClear => exact .inl rfl

/-- Settles O12: only ENCODE and TX_START answer an error, and each in the listed case alone. -/
theorem errorsAreTheListedOnes : Obligations.ErrorsAreTheListedOnes := by
  intro i s t r h hr
  obtain rfl := exec_eq_next_iff.mp h
  obtain rfl : (effect i s.block).2 = r := Option.some.inj hr
  rw [finish_block]
  obtain hok | ⟨d, rfl, hover, he⟩ | ⟨rfl, hbusy, he⟩ | ⟨rfl, hinvalid, he⟩ := effect_status_cases i s.block
  · simp [hok]
  · simpa [he] using hover
  · simpa [he] using hbusy
  · simpa [he] using hinvalid

/-- No operation answers REFUSED. -/
theorem effect_status_ne_refused (i : Instr) (b : Block) : (effect i b).2.status ≠ .refused := by
  obtain h | ⟨_, _, _, h⟩ | ⟨_, _, h⟩ | ⟨_, _, h⟩ := effect_status_cases i b <;> simp [h]

/-- Settles O11: every operation finishes the state with its own response. -/
theorem everyOperationAnswers : Obligations.EveryOperationAnswers := fun i s =>
  ⟨_, _, exec_eq_finish_effect i s, rfl, effect_status_ne_refused i s.block, rfl⟩

/-- Settles O53: a status query answers from the block and leaves it, so the second answers as the first. -/
theorem statusQueriesAreIdempotent : Obligations.StatusQueriesAreIdempotent := by
  rintro q s t u (rfl | rfl) ht hu <;> cases ht <;> cases hu <;> exact ⟨rfl, rfl⟩

/-! What a SCHED_TICK leaves unchanged, whatever it does. -/

section
variable (c : Config) (now : Nat) (b : Block)

@[simp] theorem attemptOp_rfPin : (attemptOp c now b).1.rfPin = b.rfPin := by unfold attemptOp; split <;> simp
@[simp] theorem attemptOp_sPkt : (attemptOp c now b).1.sPkt = b.sPkt := by unfold attemptOp; split <;> simp
@[simp] theorem attemptOp_sLen : (attemptOp c now b).1.sLen = b.sLen := by unfold attemptOp; split <;> simp

@[simp] theorem schedTickOp_rfPin : (schedTickOp c now b).1.rfPin = b.rfPin := by
  unfold schedTickOp; repeat' split
  all_goals simp
@[simp] theorem schedTickOp_sPkt : (schedTickOp c now b).1.sPkt = b.sPkt := by
  unfold schedTickOp; repeat' split
  all_goals simp
@[simp] theorem schedTickOp_sLen : (schedTickOp c now b).1.sLen = b.sLen := by
  unfold schedTickOp; repeat' split
  all_goals simp
end

/-- Settles O54: an operation's frame, field by field, for each operation. -/
theorem onlyListedWritersChangeAField : Obligations.OnlyListedWritersChangeAField := by
  intro i s t h
  obtain rfl := exec_eq_next_iff.mp h
  cases i <;> simp [effect]

end Sys2Proof.Machine

/-! A Waveform as the bits it is made of (41_waveform_encoder.md R76, R79 to R84): where each level stands, and which
runs of equal levels there are. -/

namespace Sys2Proof.Machine

/-! Bits, most significant first, and their expansion. -/

/-- The bits of the bytes, in the order they go out (20_memory.md R38, R39). -/
def bitsOfBytes (d : List Byte) : List Bool := d.flatMap fun x => List.ofFn fun k : Fin 8 => x.getLsbD (7 - k.val)

/-- The levels of a list of bits. -/
def expandBits (bs : List Bool) : List Level := bs.flatMap expand

@[simp] theorem bitsOfBytes_nil : bitsOfBytes [] = [] := rfl

theorem bitsOfBytes_cons (x : Byte) (d : List Byte) :
    bitsOfBytes (x :: d) = (List.ofFn fun k : Fin 8 => x.getLsbD (7 - k.val)) ++ bitsOfBytes d := rfl

@[simp] theorem bitsOfBytes_length (d : List Byte) : (bitsOfBytes d).length = 8 * d.length := by
  induction d with
  | nil => rfl
  | cons x xs ih => rw [bitsOfBytes_cons, List.length_append, ih]; simp; omega

/-- Bit `j` of byte `m` stands at `8 m + (7 − j)`. -/
theorem bitsOfBytes_getElem? (d : List Byte) (m : Fin d.length) (j : Fin 8) :
    (bitsOfBytes d)[8 * m.val + (7 - j.val)]? = some (d[m].getLsbD j.val) := by
  induction d with
  | nil => exact m.elim0
  | cons x xs ih =>
    rw [bitsOfBytes_cons]
    cases m using Fin.cases with
    | zero =>
      rw [List.getElem?_append_left (by simp; omega), List.getElem?_ofFn, dif_pos (by simp; omega)]
      simp [show 7 - (7 - j.val) = j.val by omega]
    | succ m =>
      rw [List.getElem?_append_right (by simp; omega)]
      simpa [show 8 * (m.val + 1) + (7 - j.val) - 8 = 8 * m.val + (7 - j.val) by omega] using ih m

@[simp] theorem expandBits_length (bs : List Bool) : (expandBits bs).length = 2 * bs.length := by
  induction bs with
  | nil => rfl
  | cons x xs ih => simp [expandBits, List.flatMap_cons] at ih ⊢; omega

theorem expandBits_cons (v : Bool) (bs : List Bool) :
    expandBits (v :: bs) = levelOfBit v :: levelOfBit (!v) :: expandBits bs := by
  cases v <;> rfl

theorem expandBits_getElem?_even (bs : List Bool) (q : Nat) :
    (expandBits bs)[2 * q]? = bs[q]?.map levelOfBit := by
  induction bs generalizing q with
  | nil => rfl
  | cons v vs ih =>
    cases q with
    | zero => simp [expandBits_cons]
    | succ q => simpa [expandBits_cons, Nat.mul_succ] using ih q

theorem expandBits_getElem?_odd (bs : List Bool) (q : Nat) :
    (expandBits bs)[2 * q + 1]? = bs[q]?.map fun v => levelOfBit (!v) := by
  induction bs generalizing q with
  | nil => rfl
  | cons v vs ih =>
    cases q with
    | zero => simp [expandBits_cons]
    | succ q => simpa [expandBits_cons, Nat.mul_succ] using ih q

/-- The expansion of bytes is that of their bits. -/
theorem expandBytes_eq (d : List Byte) : expandBytes d = expandBits (bitsOfBytes d) := by
  induction d with
  | nil => rfl
  | cons x xs ih =>
    have hx : expandByte x = expandBits (List.ofFn fun k : Fin 8 => x.getLsbD (7 - k.val)) := by
      simp [expandByte, expandBits, List.ofFn_succ]
    have hcons : expandBytes (x :: xs) = expandByte x ++ expandBytes xs := rfl
    rw [hcons, hx, ih, bitsOfBytes_cons]
    exact List.flatMap_append.symm

theorem levelOfBit_not_ne (v : Bool) : levelOfBit (!v) ≠ levelOfBit v := by cases v <;> decide

/-- The two levels of a bit differ. -/
theorem expandBits_pair_ne {bs : List Bool} {q : Nat} {v : Level} (h0 : (expandBits bs)[2 * q]? = some v)
    (h1 : (expandBits bs)[2 * q + 1]? = some v) : False := by
  rw [expandBits_getElem?_even] at h0
  rw [expandBits_getElem?_odd] at h1
  obtain ⟨x, hx, rfl⟩ := Option.map_eq_some_iff.mp h0
  rw [hx] at h1
  exact levelOfBit_not_ne x (Option.some.inj h1)

/-! The fields of a Waveform. -/

/-- The bits of the preamble. -/
def wakeBits (c : Config) : List Bool := bitsOfBytes c.wakeup.toList

/-- The bits of the start marker and the payload. -/
def bodyBits (d : List Byte) : List Bool := true :: bitsOfBytes d

@[simp] theorem wakeBits_length (c : Config) : (wakeBits c).length = 32 := by simp [wakeBits]

@[simp] theorem bodyBits_length (d : List Byte) : (bodyBits d).length = 8 * d.length + 1 := by simp [bodyBits]

theorem waveform_eq (c : Config) (d : List Byte) :
    waveform c d = expandBits (wakeBits c) ++ (header c ++ (expandBits (bodyBits d) ++ stopField c)) := by
  simp [waveform, preamble, startMarker, wakeBits, bodyBits, expandBytes_eq, expandBits]

/-- The pair of levels of a bit of the preamble (41_waveform_encoder.md R79). -/
theorem waveform_preamble_pair (c : Config) (d : List Byte) {q : Nat} {v : Bool} (h : (wakeBits c)[q]? = some v) :
    (waveform c d)[2 * q]? = some (levelOfBit v) ∧ (waveform c d)[2 * q + 1]? = some (levelOfBit (!v)) := by
  obtain ⟨hq, -⟩ := List.getElem?_eq_some_iff.mp h
  rw [wakeBits_length] at hq
  rw [waveform_eq, List.getElem?_append_left (by simp; omega), List.getElem?_append_left (by simp; omega),
    expandBits_getElem?_even, expandBits_getElem?_odd, h]
  exact ⟨rfl, rfl⟩

/-- Bit `j` of WAKEUP's byte `k`. -/
theorem wakeBits_getElem? (c : Config) (k : Fin 4) (j : Fin 8) :
    (wakeBits c)[8 * k.val + (7 - j.val)]? = some (c.wakeup[k].getLsbD j.val) :=
  bitsOfBytes_getElem? c.wakeup.toList (k.cast Vector.length_toList.symm) j

/-- Bit `j` of the payload's byte `m`, after the start marker's one bit. -/
theorem bodyBits_getElem? (d : List Byte) (m : Fin d.length) (j : Fin 8) :
    (bodyBits d)[8 * m.val + (7 - j.val) + 1]? = some (d[m].getLsbD j.val) :=
  bitsOfBytes_getElem? d m j

section
variable {c : Config} {d : List Byte} (hhigh : c.hdrHigh = 3) (hlow : c.hdrLow = 7) (hstop : c.stopLow = 5)
include hhigh hlow

/-- What follows the preamble's 64 levels. -/
theorem waveform_after_preamble (i : Nat) :
    (waveform c d)[64 + i]? = (List.replicate 3 Level.high ++
      (List.replicate 7 Level.low ++ (expandBits (bodyBits d) ++ stopField c)))[i]? := by
  rw [waveform_eq, List.getElem?_append_right (by simp)]
  simp [header, hhigh, hlow]

theorem waveform_header_high {i : Nat} (h0 : 64 ≤ i) (h1 : i ≤ 66) : (waveform c d)[i]? = some .high := by
  obtain ⟨k, rfl⟩ := Nat.exists_eq_add_of_le h0
  rw [waveform_after_preamble hhigh hlow, List.getElem?_append_left (by simp; omega), List.getElem?_replicate,
    if_pos (by omega)]

theorem waveform_header_low {i : Nat} (h0 : 67 ≤ i) (h1 : i ≤ 73) : (waveform c d)[i]? = some .low := by
  obtain ⟨k, rfl⟩ := Nat.exists_eq_add_of_le h0
  rw [show 67 + k = 64 + (3 + k) by omega, waveform_after_preamble hhigh hlow,
    List.getElem?_append_right (by simp), List.getElem?_append_left (by simp; omega), List.getElem?_replicate,
    if_pos (by simp; omega)]

/-- What follows the header: the bits of the start marker and the payload, then the stop field. -/
theorem waveform_after_header (i : Nat) :
    (waveform c d)[74 + i]? = (expandBits (bodyBits d) ++ stopField c)[i]? := by
  rw [show 74 + i = 64 + (10 + i) by omega, waveform_after_preamble hhigh hlow,
    List.getElem?_append_right (by simp; omega), List.getElem?_append_right (by simp; omega)]
  congr 1
  simp; omega

/-- The pair of levels of a bit of the start marker or the payload (41_waveform_encoder.md R81, R82). -/
theorem waveform_body_pair {q : Nat} {v : Bool} (h : (bodyBits d)[q]? = some v) :
    (waveform c d)[74 + 2 * q]? = some (levelOfBit v) ∧
      (waveform c d)[74 + 2 * q + 1]? = some (levelOfBit (!v)) := by
  obtain ⟨hq, -⟩ := List.getElem?_eq_some_iff.mp h
  rw [bodyBits_length] at hq
  rw [Nat.add_assoc, waveform_after_header hhigh hlow, waveform_after_header hhigh hlow,
    List.getElem?_append_left (by simp; omega), List.getElem?_append_left (by simp; omega),
    expandBits_getElem?_even, expandBits_getElem?_odd, h]
  exact ⟨rfl, rfl⟩

include hstop

theorem waveform_stop {i : Nat} (h0 : 76 + 16 * d.length ≤ i) (h1 : i ≤ 80 + 16 * d.length) :
    (waveform c d)[i]? = some .low := by
  obtain ⟨k, rfl⟩ := Nat.exists_eq_add_of_le h0
  rw [show 76 + 16 * d.length + k = 74 + (2 * (8 * d.length + 1) + k) by omega, waveform_after_header hhigh hlow,
    List.getElem?_append_right (by simp), stopField, hstop, List.getElem?_replicate, if_pos (by simp; omega)]

theorem waveform_length_of_framing : (waveform c d).length = 81 + 16 * d.length := by
  rw [waveform_length, levelCount, hhigh, hlow, hstop]; omega

end

/-- Settles O16: each field's levels are read off where the field stands. -/
theorem waveformLevelPositions : Obligations.WaveformLevelPositions := by
  intro c d hhigh hlow hstop
  have hmarker := waveform_body_pair (d := d) hhigh hlow (q := 0) (v := true) rfl
  refine ⟨fun k j => ?_, fun _ => waveform_header_high hhigh hlow, fun _ => waveform_header_low hhigh hlow, hmarker.1,
    hmarker.2, fun m j => ?_, fun _ => waveform_stop hhigh hlow hstop, waveform_length_of_framing hhigh hlow hstop⟩
  · rw [show 16 * k.val + 2 * (7 - j.val) = 2 * (8 * k.val + (7 - j.val)) by omega]
    exact waveform_preamble_pair c d (wakeBits_getElem? c k j)
  · rw [show 76 + 16 * m.val + 2 * (7 - j.val) = 74 + 2 * (8 * m.val + (7 - j.val) + 1) by omega]
    exact waveform_body_pair hhigh hlow (bodyBits_getElem? d m j)

/-- Settles O17: bit `j` of the word is bit `j % 8` of W[3 − j / 8]. -/
theorem preambleOfAWordGoesOutMsbFirst : Obligations.PreambleOfAWordGoesOutMsbFirst := by
  intro c d P hP j
  have hj := j.isLt
  have hbit := wakeBits_getElem? c ⟨3 - j.val / 8, by omega⟩ ⟨j.val % 8, by omega⟩
  rw [hP] at hbit
  simp only [BitVec.getLsbD_extractLsb', show j.val % 8 < 8 by omega, decide_true, Bool.true_and,
    show 8 * (3 - j.val / 8) + (7 - j.val % 8) = 31 - j.val by omega,
    show 24 - 8 * (3 - j.val / 8) + j.val % 8 = j.val by omega] at hbit
  exact waveform_preamble_pair c d hbit

/-- The bits of the preamble, the start marker and the payload stand at the pairs `q` of 41_waveform_encoder.md R84. -/
theorem waveform_bit_pair {c : Config} {d : List Byte} (hhigh : c.hdrHigh = 3) (hlow : c.hdrLow = 7) {q : Nat}
    (hq : q < 32 ∨ (37 ≤ q ∧ q < 38 + 8 * d.length)) :
    ∃ v, (waveform c d)[2 * q]? = some (levelOfBit v) ∧ (waveform c d)[2 * q + 1]? = some (levelOfBit (!v)) := by
  obtain hq | ⟨h37, hq⟩ := hq
  · exact ⟨_, waveform_preamble_pair c d (List.getElem?_eq_getElem (by simpa using hq))⟩
  · obtain ⟨r, rfl⟩ := Nat.exists_eq_add_of_le h37
    rw [show 2 * (37 + r) = 74 + 2 * r by omega]
    exact ⟨_, waveform_body_pair hhigh hlow (List.getElem?_eq_getElem (by simp; omega))⟩

/-- Settles O18: a bit's two levels differ, and of three indices in a row two are a bit's pair. -/
theorem expandedBitsAreBalanced : Obligations.ExpandedBitsAreBalanced := by
  refine ⟨fun c d q hhigh hlow _ hq => ?_, fun d i v ⟨h0, h1, h2⟩ => ?_⟩
  · obtain ⟨v, hfst, hsnd⟩ := waveform_bit_pair hhigh hlow hq
    exact ⟨_, _, (levelOfBit_not_ne v).symm, hfst, hsnd⟩
  · rw [expandBytes_eq] at h0 h1 h2
    obtain ⟨q, hq | hq⟩ : ∃ q, 2 * q = i ∨ 2 * q = i + 1 := ⟨(i + 1) / 2, by omega⟩
    · subst hq
      exact expandBits_pair_ne h0 h1
    · rw [← hq] at h1
      rw [show i + 2 = 2 * q + 1 by omega] at h2
      exact expandBits_pair_ne h1 h2

/-! Maximal runs. -/

section
variable {w : List Level} {v : Level} {a b l r i : Nat}

theorem IsRun.getElem? (h : IsRun w v a b) (ha : a ≤ i) (hb : i ≤ b) : w[i]? = some v := by
  obtain ⟨-, -, hlevels, -, -⟩ := h
  exact hlevels i ha hb

/-- A maximal run contains every run it meets. -/
theorem IsRun.contains (h : IsRun w v a b) (h' : IsRun w v l r) (ha : a ≤ i) (hb : i ≤ b) (hl : l ≤ i) (hr : i ≤ r) :
    l ≤ a ∧ b ≤ r := by
  obtain ⟨-, -, -, hbefore, hafter⟩ := h'
  constructor
  · by_contra hlt
    exact hbefore (l - 1) (by omega) (h.getElem? (by omega) (by omega))
  · by_contra hlt
    exact hafter (h.getElem? (by omega) (by omega))

/-- Two maximal runs that meet are the same. -/
theorem IsRun.unique (h : IsRun w v a b) (h' : IsRun w v l r) (ha : a ≤ i) (hb : i ≤ b) (hl : l ≤ i) (hr : i ≤ r) :
    a = l ∧ b = r := by
  have h1 := h.contains h' ha hb hl hr
  have h2 := h'.contains h hl hr ha hb
  omega

end

/-- The last bit before the stop field: the start marker's, or bit 0 of the last byte. -/
def lastBit (d : List Byte) : Bool := d.getLast?.elim true fun x => x.getLsbD 0

theorem bodyBits_last (d : List Byte) : (bodyBits d)[8 * d.length]? = some (lastBit d) := by
  rcases List.eq_nil_or_concat' d with rfl | ⟨ys, x, rfl⟩
  · rfl
  · have hx := bodyBits_getElem? (ys ++ [x]) ⟨ys.length, by simp⟩ 0
    simpa [lastBit, Nat.mul_succ] using hx

/-! The long runs of a Waveform (41_waveform_encoder.md R84). -/

section
variable {c : Config} {d : List Byte} (hhigh : c.hdrHigh = 3) (hlow : c.hdrLow = 7) (hstop : c.stopLow = 5)
include hhigh hlow hstop

/-- The header's High levels, with the preamble's last level when that is High. -/
theorem waveform_high_run :
    IsRun (waveform c d) .high (if c.wakeup[3].getLsbD 0 then 64 else 63) 66 := by
  obtain ⟨hfst, hsnd⟩ : (waveform c d)[62]? = some (levelOfBit (c.wakeup[3].getLsbD 0)) ∧
      (waveform c d)[63]? = some (levelOfBit (!c.wakeup[3].getLsbD 0)) :=
    waveform_preamble_pair c d (q := 31) (wakeBits_getElem? c 3 0)
  have hlen := waveform_length_of_framing (d := d) hhigh hlow hstop
  have h67 : (waveform c d)[67]? ≠ some .high := by simp [waveform_header_low hhigh hlow]
  cases hv : c.wakeup[3].getLsbD 0 with
  | true =>
    rw [hv] at hsnd
    refine ⟨by simp, by omega, fun i ha hb => waveform_header_high hhigh hlow (by simpa using ha) hb, ?_, h67⟩
    intro i hi
    obtain rfl : i = 63 := by simpa using hi
    simp [hsnd, levelOfBit]
  | false =>
    rw [hv] at hfst hsnd
    refine ⟨by simp, by omega, fun i ha hb => ?_, ?_, h67⟩
    · obtain rfl | h64 : i = 63 ∨ 64 ≤ i := by simp at ha; omega
      · exact hsnd
      · exact waveform_header_high hhigh hlow h64 hb
    · intro i hi
      obtain rfl : i = 62 := by simpa using hi
      simp [hfst, levelOfBit]

/-- The header's Low levels stand between two High ones. -/
theorem waveform_low_run : IsRun (waveform c d) .low 67 73 := by
  obtain ⟨hfst, -⟩ := waveform_body_pair (d := d) hhigh hlow (q := 0) (v := true) rfl
  have hlen := waveform_length_of_framing (d := d) hhigh hlow hstop
  refine ⟨by omega, by omega, fun i => waveform_header_low hhigh hlow, fun i hi => ?_, ?_⟩
  · obtain rfl : i = 66 := by omega
    simp [waveform_header_high hhigh hlow]
  · simp [show (waveform c d)[73 + 1]? = some .high from hfst]

/-- The stop field, with the last bit's second level when that is Low. -/
theorem waveform_stop_run :
    IsRun (waveform c d) .low (if lastBit d then 75 + 16 * d.length else 76 + 16 * d.length) (80 + 16 * d.length) := by
  obtain ⟨hfst, hsnd⟩ := waveform_body_pair hhigh hlow (bodyBits_last d)
  rw [show 74 + 2 * (8 * d.length) = 74 + 16 * d.length by omega] at hfst hsnd
  have hlen := waveform_length_of_framing (d := d) hhigh hlow hstop
  have hend : (waveform c d)[80 + 16 * d.length + 1]? ≠ some .low := by
    simp [List.getElem?_eq_none (show (waveform c d).length ≤ 80 + 16 * d.length + 1 by omega)]
  cases hv : lastBit d with
  | true =>
    rw [hv] at hfst hsnd
    refine ⟨by simp, by omega, fun i ha hb => ?_, ?_, hend⟩
    · obtain rfl | h76 : i = 74 + 16 * d.length + 1 ∨ 76 + 16 * d.length ≤ i := by simp at ha; omega
      · exact hsnd
      · exact waveform_stop hhigh hlow hstop h76 hb
    · intro i hi
      obtain rfl : i = 74 + 16 * d.length := by simp at hi; omega
      simp [hfst, levelOfBit]
  | false =>
    rw [hv] at hsnd
    refine ⟨by simp, by omega, fun i ha hb => waveform_stop hhigh hlow hstop (by simpa using ha) hb, ?_, hend⟩
    intro i hi
    obtain rfl : i = 74 + 16 * d.length + 1 := by simp at hi; omega
    simp [hsnd, levelOfBit]

/-- A run of three or more holds a pair of levels of the header or of the stop field: a bit's pair is mixed. -/
theorem exists_framing_pair {v : Level} {a b : Nat} (hab : 2 ≤ b - a) (h : IsRun (waveform c d) v a b) :
    ∃ q, a ≤ 2 * q ∧ 2 * q + 1 ≤ b ∧ (waveform c d)[2 * q]? = some v ∧ (waveform c d)[2 * q + 1]? = some v ∧
      ((32 ≤ q ∧ q ≤ 36) ∨ (76 + 16 * d.length ≤ 2 * q ∧ 2 * q + 1 ≤ 80 + 16 * d.length)) := by
  obtain ⟨q, ha, hb⟩ : ∃ q, a ≤ 2 * q ∧ 2 * q + 1 ≤ a + 2 := ⟨(a + 1) / 2, by omega, by omega⟩
  have hfst := h.getElem? ha (i := 2 * q) (by omega)
  have hsnd := h.getElem? (i := 2 * q + 1) (by omega) (by omega)
  have hbound : 2 * q + 1 < (waveform c d).length := (List.getElem?_eq_some_iff.mp hsnd).1
  rw [waveform_length_of_framing hhigh hlow hstop] at hbound
  have hbit : ¬ (q < 32 ∨ (37 ≤ q ∧ q < 38 + 8 * d.length)) := by
    intro hq
    obtain ⟨x, h0, h1⟩ := waveform_bit_pair hhigh hlow hq
    exact levelOfBit_not_ne x (Option.some.inj (h1.symm.trans (hsnd.trans (hfst.symm.trans h0))))
  exact ⟨q, ha, by omega, hfst, hsnd, by omega⟩

end

/-- Settles O19: a long run meets the header or the stop field, and so is the maximal run there. -/
theorem longRunsAreTheHeaderAndTheStop : Obligations.LongRunsAreTheHeaderAndTheStop := by
  intro c d a b hhigh hlow hstop hab
  have hclash : ∀ {i : Nat}, (waveform c d)[i]? = some .high → (waveform c d)[i]? = some .low → False := by
    intro i h0 h1
    cases h0.symm.trans h1
  constructor
  · intro hrun
    obtain ⟨q, ha, hb, hfst, hsnd, hq | ⟨h0, h1⟩⟩ := exists_framing_pair hhigh hlow hstop hab hrun
    · obtain rfl : q = 32 := by
        by_contra hne
        exact hclash hsnd (waveform_header_low hhigh hlow (by omega) (by omega))
      have hu := hrun.unique (waveform_high_run hhigh hlow hstop) ha (by omega) (by split <;> omega) (by omega)
      split at hu <;> simp_all
    · exact (hclash hfst (waveform_stop hhigh hlow hstop h0 (by omega))).elim
  · intro hrun
    obtain ⟨q, ha, hb, hfst, hsnd, hq | ⟨h0, h1⟩⟩ := exists_framing_pair hhigh hlow hstop hab hrun
    · have h34 : 34 ≤ q := by
        by_contra hne
        exact hclash (waveform_header_high hhigh hlow (by omega) (by omega)) hfst
      exact .inl (hrun.unique (waveform_low_run hhigh hlow hstop) ha (by omega) (by omega) (by omega))
    · refine .inr ?_
      have hu := hrun.unique (waveform_stop_run hhigh hlow hstop) ha (by omega) (by split <;> omega) (by omega)
      have hlen : b - a + 1 = if lastBit d then 6 else 5 := by split at hu <;> simp_all <;> omega
      refine ⟨by rw [waveform_length_of_framing hhigh hlow hstop]; omega, ?_⟩
      cases hd : d.getLast? with
      | none => simpa [lastBit, hd] using hlen
      | some x => simpa [lastBit, hd] using hlen

end Sys2Proof.Machine

/-! ENCODE by itself: what it stages, which lengths it accepts, and that it reads no state (41_waveform_encoder.md R75
to R78, R85; 70_reset_and_hazards.md R129). -/

namespace Sys2Proof.Machine

/-- An ENCODE that fits stages the whole Waveform. -/
theorem encodeOp_of_fits {c : Config} {d : List Byte} (hfits : levelCount c d.length ≤ c.cap) (b : Block) :
    encodeOp c d b = ({ b with
      encBuf := writeBuf b.encBuf (waveform c d)
      encLen := BitVec.ofNat 8 (levelCount c d.length)
      encValid := true }, ⟨.ok, BitVec.ofNat 8 (levelCount c d.length)⟩) := by
  obtain ⟨hover, -⟩ | ⟨-, h⟩ := encodeOp_cases c d b
  · exact absurd hfits (Nat.not_le.mpr hover)
  · exact h

theorem encodeOp_of_overflow {c : Config} {d : List Byte} (hover : c.cap < levelCount c d.length) (b : Block) :
    encodeOp c d b = ({ b with encValid := false }, ⟨.overflow, 0#8⟩) := by
  obtain ⟨-, h⟩ | ⟨hfits, -⟩ := encodeOp_cases c d b
  · exact h
  · exact absurd hfits (Nat.not_le.mpr hover)

theorem encodeOp_status_ok_iff (c : Config) (d : List Byte) (b : Block) :
    (encodeOp c d b).2.status = .ok ↔ levelCount c d.length ≤ c.cap := by
  obtain ⟨hover, h⟩ | ⟨hfits, h⟩ := encodeOp_cases c d b
  · simp [h, hover]
  · simp [h, hfits]

/-- A Waveform of this hardware's framing has at least the levels around its payload. -/
theorem levelCount_of_framing {c : Config} (hhigh : c.hdrHigh = 3) (hlow : c.hdrLow = 7) (hstop : c.stopLow = 5)
    (n : Nat) : levelCount c n = 81 + 16 * n := by
  rw [levelCount, hhigh, hlow, hstop]
  omega

/-- The preamble and the start marker alone have levels. -/
theorem levelCount_pos (c : Config) (n : Nat) : 0 < levelCount c n := by
  unfold levelCount
  omega

/-- Settles O15: the level count of R77 against the capacity, divided out. -/
theorem encodeAcceptsUpToTheMaximumLength : Obligations.EncodeAcceptsUpToTheMaximumLength := by
  intro c d b hhigh hlow hstop
  rw [encodeOp_status_ok_iff, levelCount_of_framing hhigh hlow hstop, Nat.le_div_iff_mul_le (by decide)]
  omega

/-- The length field holds the level count of a Waveform that fits a buffer of at most 255 levels. -/
theorem toNat_levelCount {c : Config} {n : Nat} (hcap : c.cap ≤ 255) (hfits : levelCount c n ≤ c.cap) :
    (BitVec.ofNat 8 (levelCount c n)).toNat = levelCount c n :=
  Nat.mod_eq_of_lt (by omega)

/-- A Waveform written to a buffer that holds it is what the buffer's first levels read as. -/
theorem take_writeBuf_waveform {c : Config} {d : List Byte} {buf : List Level} (hcap : c.cap ≤ 255)
    (hfits : levelCount c d.length ≤ c.cap) (hbuf : buf.length = c.cap) :
    (writeBuf buf (waveform c d)).take (BitVec.ofNat 8 (levelCount c d.length)).toNat = waveform c d := by
  rw [toNat_levelCount hcap hfits, ← waveform_length]
  exact writeBuf_take _ _ (by rw [waveform_length, hbuf]; exact hfits)

/-- ENCODE stages exactly the command's Waveform. -/
theorem encodeOp_staged {c : Config} {d : List Byte} {b : Block} (hcap : c.cap ≤ 255)
    (hfits : levelCount c d.length ≤ c.cap) (hbuf : b.encBuf.length = c.cap) :
    (encodeOp c d b).1.staged = waveform c d := by
  rw [encodeOp_of_fits hfits]
  exact take_writeBuf_waveform hcap hfits hbuf

/-- A Waveform in a buffer of this hardware, with what the buffer held past it. -/
theorem writeBuf_waveform_hw {buf : List Level} {d : List Byte} (hbuf : buf.length = 224) (hd : d.length ≤ 8) :
    writeBuf buf (waveform Config.hw d) = waveform Config.hw d ++ buf.drop (81 + 16 * d.length) := by
  have hlen : (waveform Config.hw d).length = 81 + 16 * d.length := by rw [waveform_length, levelCount_hw]
  rw [writeBuf_eq _ _ (by omega), hlen]

/-- This hardware's Waveform, its fields written out (41_waveform_encoder.md R76). -/
theorem waveform_hw (d : List Byte) :
    waveform Config.hw d =
      expandByte (Config.wakeupByte 0) ++ expandByte (Config.wakeupByte 1) ++ expandByte (Config.wakeupByte 2) ++
        expandByte (Config.wakeupByte 3) ++ List.replicate 3 .high ++ List.replicate 7 .low ++ [.high, .low] ++
        d.flatMap expandByte ++ List.replicate 5 .low := by
  have hpre : preamble Config.hw = expandByte (Config.wakeupByte 0) ++ expandByte (Config.wakeupByte 1) ++
      expandByte (Config.wakeupByte 2) ++ expandByte (Config.wakeupByte 3) := by
    simp [preamble, expandBytes, Config.hw]
  rw [waveform, hpre, header, ← List.append_assoc]
  rfl

/-- Settles O13: the level count is at most 209 of the buffer's 224. -/
theorem encodeStagesTheWaveform : Obligations.EncodeStagesTheWaveform := by
  intro s d hd hbuf
  refine ⟨_, exec_encode d s, rfl, ?_⟩
  rw [finish_response, finish_block, encodeOp_of_fits (by rw [levelCount_hw, hw_cap]; omega), levelCount_hw,
    writeBuf_waveform_hw hbuf hd, waveform_hw]
  exact ⟨rfl, rfl⟩

/-- Settles O20: whether the command fits, the level count and the Waveform are the command's alone. -/
theorem encodeReadsNoState : Obligations.EncodeReadsNoState := by
  intro s u s' u' d hs hu hexecs hexecu
  cases hexecs
  cases hexecu
  rw [finish_response, finish_response, finish_block, finish_block]
  by_cases hfits : levelCount Config.hw d.length ≤ Config.hw.cap
  · rw [encodeOp_staged (by decide) hfits hs, encodeOp_staged (by decide) hfits hu, encodeOp_of_fits hfits,
      encodeOp_of_fits hfits]
    exact ⟨rfl, rfl, fun _ => ⟨rfl, rfl⟩⟩
  · rw [encodeOp_of_overflow (Nat.not_le.mp hfits), encodeOp_of_overflow (Nat.not_le.mp hfits)]
    refine ⟨rfl, rfl, fun hd => absurd ?_ hfits⟩
    rw [levelCount_hw, hw_cap]
    omega

/-- Settles O60: an encodable Waveform has at most 209 levels. -/
theorem encodableWaveformEndsBeforeTheDeadline : Obligations.EncodableWaveformEndsBeforeTheDeadline := by
  intro n hn
  rw [levelCount_hw] at hn ⊢
  have h209 : 81 + 16 * n ≤ 209 := by
    rw [hw_cap] at hn
    omega
  refine ⟨?_, by decide⟩
  calc (81 + 16 * n + 1) * Config.hw.tLevelUs
    _ ≤ 210 * 400 := Nat.mul_le_mul (Nat.succ_le_succ h209) (le_refl 400)

end Sys2Proof.Machine

/-! The transmitter's operations one by one (42_transmitter.md R86 to R91, R93, R94, R97). -/

namespace Sys2Proof.Machine

theorem txStartOp_of_busy {b : Block} (hb : b.txState ≠ .idle) : txStartOp b = (b, ⟨.busy, 0#8⟩) := by
  simp [txStartOp, hb]

theorem txStartOp_of_invalid {b : Block} (hidle : b.txState = .idle) (hv : b.encValid = false) :
    txStartOp b = (b, ⟨.invalid, 0#8⟩) := by
  simp [txStartOp, hidle, hv]

theorem txStartOp_of_ready {b : Block} (hidle : b.txState = .idle) (hv : b.encValid = true) :
    txStartOp b = ({ b with
      txBuf := writeBuf b.txBuf b.staged
      txLen := b.encLen
      txCursor := 0#8
      txState := .sending
      encValid := false }, ⟨.ok, 0#8⟩) := by
  simp [txStartOp, hidle, hv]

theorem txTickOp_of_idle {b : Block} (hb : b.txState = .idle) : txTickOp b = b := by
  simp [txTickOp, hb]

theorem txTickOp_of_last {b : Block} (hb : b.txState = .sending) (hc : b.txCursor + 1#8 = b.txLen) :
    txTickOp b = { b with rfPin := b.cursorLevel, txCursor := 0#8, txState := .justCompleted } := by
  simp [txTickOp, hb, hc]

theorem txTickOp_of_not_last {b : Block} (hb : b.txState = .sending) (hc : b.txCursor + 1#8 ≠ b.txLen) :
    txTickOp b = { b with rfPin := b.cursorLevel, txCursor := b.txCursor + 1#8 } := by
  simp [txTickOp, hb, hc]

theorem cursorLevel_eq {b : Block} {v : Level} (h : b.txBuf[b.txCursor.toNat]? = some v) : b.cursorLevel = v := by
  simp [Block.cursorLevel, h]

/-- Below the length the cursor advances without a wrap. -/
theorem cursor_succ_toNat {b : Block} (h : b.txCursor.toNat < b.txLen.toNat) :
    (b.txCursor + 1#8).toNat = b.txCursor.toNat + 1 := by
  bv_omega

/-- The tick outputs the last level when the cursor is one below the length. -/
theorem cursor_succ_eq_txLen_iff {b : Block} (h : b.txCursor.toNat < b.txLen.toNat) :
    b.txCursor + 1#8 = b.txLen ↔ b.txCursor.toNat + 1 = b.txLen.toNat := by
  rw [← BitVec.toNat_inj, cursor_succ_toNat h]

/-- Settles O21: the staged levels fit TX_BUF and stand at its front. -/
theorem txStartLoadsTheStagedWaveform : Obligations.TxStartLoadsTheStagedWaveform := by
  intro s hidle hv henc htx hlen
  have hstaged : s.block.staged.length = s.block.encLen.toNat := by
    simp [Block.staged, henc, hlen]
  refine ⟨_, exec_txStart s, rfl, ?_⟩
  rw [finish_response, finish_block, txStartOp_of_ready hidle hv, writeBuf_eq _ _ (by omega), hstaged]
  exact ⟨rfl, rfl⟩

/-- Settles O22: BUSY is tested before INVALID. -/
theorem txStartRejectsBusyBeforeInvalid : Obligations.TxStartRejectsBusyBeforeInvalid := by
  intro s
  constructor
  · intro hb
    exact ⟨_, exec_txStart s, by simp [txStartOp_of_busy hb], rfl, by simp [txStartOp_of_busy hb]⟩
  · intro hidle hv
    exact ⟨_, exec_txStart s, by simp [txStartOp_of_invalid hidle hv], rfl, by simp [txStartOp_of_invalid hidle hv]⟩

/-- Settles O23: the cursor decides between the two cases of a tick while Sending. -/
theorem txTickOutputsTheCursorLevel : Obligations.TxTickOutputsTheCursorLevel := by
  intro s v hsending hv hlt
  refine ⟨_, exec_txTick s, rfl, rfl, fun hlast => ?_, fun hmore => ?_⟩
  · rw [finish_block, txTickOp_of_last hsending ((cursor_succ_eq_txLen_iff hlt).mpr hlast), cursorLevel_eq hv]
  · have hne : s.block.txCursor + 1#8 ≠ s.block.txLen := fun h =>
      absurd ((cursor_succ_eq_txLen_iff hlt).mp h) (Nat.ne_of_lt hmore)
    rw [finish_block, txTickOp_of_not_last hsending hne, cursorLevel_eq hv]
    exact ⟨rfl, cursor_succ_toNat hlt⟩

/-- Settles O25: the tick's case for Idle. -/
theorem txTickInIdleChangesNothing : Obligations.TxTickInIdleChangesNothing := fun s hidle =>
  ⟨_, exec_txTick s, rfl, rfl, txTickOp_of_idle hidle⟩

/-- A tick while Sending writes RF_PIN, so it does not see what RF_PIN was. -/
theorem txTickOp_withPin {b : Block} (hb : b.txState = .sending) (v : Level) :
    txTickOp { b with rfPin := v } = txTickOp b := by
  by_cases hc : b.txCursor + 1#8 = b.txLen
  · rw [txTickOp_of_last hb hc, txTickOp_of_last (b := { b with rfPin := v }) hb hc]
    rfl
  · rw [txTickOp_of_not_last hb hc, txTickOp_of_not_last (b := { b with rfPin := v }) hb hc]
    rfl

/-- Settles O28: PIN_CLEAR writes RF_PIN alone, which the next tick writes again. -/
theorem pinClearLastsUntilTheNextTick : Obligations.PinClearLastsUntilTheNextTick := by
  intro s t u v hsending ht hu hv
  cases ht
  cases hu
  cases hv
  exact ⟨rfl, hsending, txTickOp_withPin hsending .low⟩

end Sys2Proof.Machine

/-! The deadline's arithmetic (40_scheduler.md R69, 60_exceptions.md R108). -/

namespace Sys2Proof.Machine

/-- `elapsed` is the modular difference of 40_scheduler.md R69, which is not negative. -/
theorem elapsed_cast (c : Config) (last now : Nat) :
    (elapsed c last now : Int) = ((now : Int) - (last : Int)) % (2 ^ c.clkW : Int) :=
  Int.toNat_of_nonneg (Int.emod_nonneg _ (by positivity))

/-- Settles O50: modulo 2^CLK_W the difference is that of the counts, and it is below 2^CLK_W. -/
theorem elapsedIsTrueTimeUnderTheClockLaw : Obligations.ElapsedIsTrueTimeUnderTheClockLaw := by
  intro c a b hab hb
  zify [hab]
  calc (elapsed c (a % 2 ^ c.clkW) (b % 2 ^ c.clkW) : Int)
    _ = ((b : Int) % 2 ^ c.clkW - (a : Int) % 2 ^ c.clkW) % 2 ^ c.clkW := by rw [elapsed_cast]; push_cast; rfl
    _ = ((b : Int) - a) % 2 ^ c.clkW := (Int.sub_emod _ _ _).symm
    _ = (b : Int) - a := Int.emod_eq_of_lt (by omega) (by zify at hb; omega)

/-- An attempt may fire when the deadline is cleared or T_ATTEMPT has elapsed. -/
theorem attemptDue_iff (c : Config) (now : Nat) (b : Block) :
    b.attemptDue c now = true ↔ b.sDue = true ∨ c.tAttempt ≤ elapsed c b.sLast now := by
  simp [Block.attemptDue]

/-- The same at this hardware's T_ATTEMPT, with the difference written out. -/
theorem attemptDue_hw_iff (now : Nat) (b : Block) :
    b.attemptDue Config.hw now = true ↔
      b.sDue = true ∨ 100000 ≤ ((now : Int) - (b.sLast : Int)) % (2 ^ Config.hw.clkW : Int) := by
  rw [attemptDue_iff, ← elapsed_cast, hw_tAttempt]
  norm_cast

/-- The true time of the last accepted attempt is `last` (60_exceptions.md R108). -/
def Block.LastAt (last : Nat) (b : Block) : Prop := b.sDue = false ∧ b.sLast = last % 2 ^ Config.hw.clkW

/-- Under the clock law an attempt is due when T_ATTEMPT has truly passed. -/
theorem attemptDue_of_lastAt {b : Block} {last time : Nat} (h : b.LastAt last) (hle : last ≤ time)
    (hlaw : time < last + 2 ^ Config.hw.clkW) :
    b.attemptDue Config.hw (time % 2 ^ Config.hw.clkW) = true ↔ last + 100000 ≤ time := by
  obtain ⟨hdue, hlast⟩ := h
  rw [attemptDue_iff, hdue, hlast, elapsedIsTrueTimeUnderTheClockLaw _ _ _ hle hlaw, hw_tAttempt]
  simp
  omega

/-- T_ATTEMPT is within the clock's range (92_eei_decisions.md D12). -/
theorem tAttempt_lt_clock : 100000 < 2 ^ Config.hw.clkW := by
  obtain ⟨-, -, -, hclock, -⟩ := hw_wellFormed
  exact hclock

/-- No attempt is due before T_ATTEMPT has truly passed. -/
theorem attemptDue_eq_false_of_early {b : Block} {last time : Nat} (h : b.LastAt last) (hle : last ≤ time)
    (hearly : time < last + 100000) : b.attemptDue Config.hw (time % 2 ^ Config.hw.clkW) = false := by
  have hclock := tAttempt_lt_clock
  rw [← Bool.not_eq_true, attemptDue_of_lastAt h hle (by omega)]
  omega

end Sys2Proof.Machine

/-! The scheduler's operations case by case (40_scheduler.md R63 to R69). -/

namespace Sys2Proof.Machine

/-- The packet has the length S_LEN says when S_PKT can hold it. -/
theorem packet_length {b : Block} (h : b.sPkt.length = 255) : b.packet.length = b.sLen.toNat := by
  simp [Block.packet, h]
  omega

/-- The packet reads back from S_PKT. -/
theorem schedArmOp_packet {c : Config} {d : List Byte} {b : Block} (hd : d.length ≤ 255)
    (hpkt : d.length ≤ b.sPkt.length) : (schedArmOp c d b).packet = d := by
  have hlen : (BitVec.ofNat 8 d.length).toNat = d.length := Nat.mod_eq_of_lt (by omega)
  simp [Block.packet, schedArmOp, hlen, writeBuf_take _ _ hpkt]

/-- Settles O33: the packet fits S_PKT, and the rest of the operation is its definition. -/
theorem schedArmReplacesTheSchedule : Obligations.SchedArmReplacesTheSchedule := by
  intro s d hd hpkt
  refine ⟨_, exec_schedArm d s, rfl, rfl, ?_, schedArmOp_packet hd (by omega)⟩
  rw [finish_block, schedArmOp, writeBuf_eq _ _ (by omega)]
  rfl

section
variable {c : Config} {now : Nat} {b : Block}

theorem schedTickOp_of_inactive (ha : b.sActive = false) : schedTickOp c now b = (b, ⟨.ok, 0#8⟩) := by
  simp [schedTickOp, ha, schedTickResult]

theorem schedTickOp_of_exhausted_idle (ha : b.sActive = true) (hr : b.sRemain = 0#3) (hidle : b.txState = .idle) :
    schedTickOp c now b = ({ b with sActive := false }, ⟨.ok, 4#8⟩) := by
  rw [schedTickOp_of_exhausted c now ha hr, if_pos hidle]

theorem schedTickOp_of_exhausted_busy (ha : b.sActive = true) (hr : b.sRemain = 0#3) (hbusy : b.txState ≠ .idle) :
    schedTickOp c now b = (b, ⟨.ok, 0#8⟩) := by
  rw [schedTickOp_of_exhausted c now ha hr, if_neg hbusy]

theorem schedTickOp_of_not_due (ha : b.sActive = true) (hr : b.sRemain ≠ 0#3) (hdue : b.attemptDue c now = false) :
    schedTickOp c now b = (b, ⟨.ok, 0#8⟩) := by
  simp [schedTickOp, ha, hr, hdue, schedTickResult]

theorem schedTickOp_of_due (ha : b.sActive = true) (hr : b.sRemain ≠ 0#3) (hdue : b.attemptDue c now = true) :
    schedTickOp c now b = attemptOp c now b := by
  simp [schedTickOp, ha, hr, hdue]

theorem attemptOp_of_overflow (hover : c.cap < levelCount c b.packet.length) :
    attemptOp c now b = ({ b with encValid := false }, ⟨.ok, 1#8⟩) := by
  obtain ⟨-, h⟩ | ⟨hfits, -, -⟩ | ⟨hfits, -, -⟩ := attemptOp_cases c now b
  · exact h
  all_goals exact absurd hfits (Nat.not_le.mpr hover)

theorem attemptOp_of_busy (hfits : levelCount c b.packet.length ≤ c.cap) (hbusy : b.txState ≠ .idle) :
    attemptOp c now b = ({ b with
      encBuf := writeBuf b.encBuf (waveform c b.packet)
      encLen := BitVec.ofNat 8 (levelCount c b.packet.length)
      encValid := true }, ⟨.ok, 1#8⟩) := by
  obtain ⟨hover, -⟩ | ⟨-, -, h⟩ | ⟨-, hidle, -⟩ := attemptOp_cases c now b
  · exact absurd hfits (Nat.not_le.mpr hover)
  · exact h
  · exact absurd hidle hbusy

/-- An accepted attempt of a packet whose Waveform the staging buffer holds. -/
theorem attemptOp_of_idle (hcap : c.cap ≤ 255) (hbuf : b.encBuf.length = c.cap)
    (hfits : levelCount c b.packet.length ≤ c.cap) (hidle : b.txState = .idle) :
    attemptOp c now b = ({ b with
      encBuf := writeBuf b.encBuf (waveform c b.packet)
      encLen := BitVec.ofNat 8 (levelCount c b.packet.length)
      encValid := false
      txBuf := writeBuf b.txBuf (waveform c b.packet)
      txLen := BitVec.ofNat 8 (levelCount c b.packet.length)
      txCursor := 0#8
      txState := .sending
      sRemain := b.sRemain - 1#3
      sLast := now
      sDue := false }, ⟨.ok, 3#8⟩) := by
  obtain ⟨hover, -⟩ | ⟨-, hbusy, -⟩ | ⟨-, -, h⟩ := attemptOp_cases c now b
  · exact absurd hfits (Nat.not_le.mpr hover)
  · exact absurd hidle hbusy
  · rw [h, take_writeBuf_waveform hcap hfits hbuf]

end

/-- Settles O36: neither an inactive scheduler nor one that waits acts. -/
theorem schedTickWaits : Obligations.SchedTickWaits := by
  intro s now hwait
  have hnothing : schedTickOp Config.hw now s.block = (s.block, ⟨.ok, 0#8⟩) := by
    obtain ha | ⟨ha, hr, hdue, hearly⟩ := hwait
    · exact schedTickOp_of_inactive ha
    · have hnot : ¬ s.block.attemptDue Config.hw now = true := by
        rw [attemptDue_hw_iff, hdue]
        simpa using hearly
      exact schedTickOp_of_not_due ha hr (by simpa using hnot)
  exact ⟨_, exec_schedTick now s, by simp [hnothing], rfl, by simp [hnothing]⟩

/-- An attempt on a packet of at most 8 bytes fits this hardware, its level count written out. -/
theorem levelCount_packet_hw {b : Block} (hpkt : b.sPkt.length = 255) :
    levelCount Config.hw b.packet.length = 81 + 16 * b.sLen.toNat := by
  rw [levelCount_hw, packet_length hpkt]

/-- The packet's Waveform in a buffer of this hardware. -/
theorem writeBuf_packet_hw {b : Block} {buf : List Level} (hpkt : b.sPkt.length = 255) (hbuf : buf.length = 224)
    (hlen : b.sLen.toNat ≤ 8) :
    writeBuf buf (waveform Config.hw b.packet) =
      waveform Config.hw (b.sPkt.take b.sLen.toNat) ++ buf.drop (81 + 16 * b.sLen.toNat) := by
  rw [writeBuf_waveform_hw hbuf (by rw [packet_length hpkt]; exact hlen), packet_length hpkt, Block.packet]

/-- One attempt fewer, without a wrap. -/
theorem remain_pred_toNat {r : BitVec 3} (h : r ≠ 0#3) : (r - 1#3).toNat + 1 = r.toNat := by
  bv_omega

/-- Settles O38: a due attempt in Idle on a packet that fits. -/
theorem acceptedAttemptStartsThePacket : Obligations.AcceptedAttemptStartsThePacket := by
  intro s now hshape ha hr hdue hidle hlen
  have hcount := levelCount_packet_hw hshape.sPkt
  have htick := schedTickOp_of_due ha hr ((attemptDue_hw_iff _ _).mpr hdue)
  rw [attemptOp_of_idle (by decide) hshape.encBuf (by rw [hcount, hw_cap]; omega) hidle, hcount,
    writeBuf_packet_hw hshape.sPkt hshape.encBuf hlen, writeBuf_packet_hw hshape.sPkt hshape.txBuf hlen] at htick
  exact ⟨_, exec_schedTick now s, rfl, by rw [finish_response, htick], by rw [finish_block, htick],
    by rw [finish_block, htick]; exact remain_pred_toNat hr⟩

/-- Settles O39: a due attempt outside Idle on a packet that fits. -/
theorem busyAttemptIsNotCounted : Obligations.BusyAttemptIsNotCounted := by
  intro s now hshape ha hr hdue hbusy hlen
  have hcount := levelCount_packet_hw hshape.sPkt
  have htick := schedTickOp_of_due ha hr ((attemptDue_hw_iff _ _).mpr hdue)
  rw [attemptOp_of_busy (by rw [hcount, hw_cap]; omega) hbusy, hcount,
    writeBuf_packet_hw hshape.sPkt hshape.encBuf hlen] at htick
  exact ⟨_, exec_schedTick now s, rfl, by rw [finish_response, htick], by rw [finish_block, htick]⟩

/-- Settles O40: a due attempt on a packet that does not fit. -/
theorem overflowAttemptIsNotCounted : Obligations.OverflowAttemptIsNotCounted := by
  intro s now hshape ha hr hdue hlen
  have htick := schedTickOp_of_due ha hr ((attemptDue_hw_iff _ _).mpr hdue)
  rw [attemptOp_of_overflow (by rw [levelCount_packet_hw hshape.sPkt, hw_cap]; omega)] at htick
  exact ⟨_, exec_schedTick now s, rfl, by rw [finish_response, htick], by rw [finish_block, htick]⟩

/-- When an attempt is accepted, and what it answers otherwise. -/
theorem attemptOp_response (c : Config) (now : Nat) (b : Block) :
    ((attemptOp c now b).2 = ⟨.ok, 3#8⟩ ↔ b.txState = .idle ∧ levelCount c b.packet.length ≤ c.cap) ∧
      ((attemptOp c now b).2 = ⟨.ok, 3#8⟩ ∨ (attemptOp c now b).2 = ⟨.ok, 1#8⟩) := by
  obtain ⟨hover, h⟩ | ⟨hfits, hbusy, h⟩ | ⟨hfits, hidle, h⟩ := attemptOp_cases c now b
  · simp [h, hover]
  · simp [h, hbusy]
  · simp [h, hidle, hfits]

/-- Settles O41: the response of a due SCHED_TICK is the attempt's. -/
theorem dueAttemptIsAcceptedExactlyWhenIdleAndFitting :
    Obligations.DueAttemptIsAcceptedExactlyWhenIdleAndFitting := by
  intro c now b ha hr hdue
  rw [schedTickOp_of_due ha hr hdue]
  exact attemptOp_response c now b

/-- Settles O51: before the deadline a SCHED_TICK that has attempts left waits; with none left it may deactivate. -/
theorem attemptNeverComesEarly : Obligations.AttemptNeverComesEarly := by
  intro s p rest last hs hctx hcmd hdue hlast hle hearly
  have hnot := attemptDue_eq_false_of_early ⟨hdue, hlast⟩ hle hearly
  refine ⟨_, step_eq_next_effect hs (decode_schedTick hctx hcmd), rfl, ?_⟩
  rw [finish_block, finish_response, effect]
  obtain ⟨-, h⟩ | ⟨-, -, -, h⟩ | ⟨-, -, -, h⟩ | ⟨-, -, -, h⟩ | ⟨-, -, hyes, -⟩ :=
    schedTickOp_cases Config.hw (p.clock % 2 ^ Config.hw.clkW) s.block
  case inr.inl => exact .inr (by rw [h]; exact ⟨rfl, rfl⟩)
  case inr.inr.inr.inr => exact absurd hyes (by simp [hnot])
  all_goals exact .inl (by rw [h]; exact ⟨rfl, rfl⟩)

/-! The packet's bytes (10_state.md R26, 20_memory.md R46). -/

/-- The second block is the first but for the packet's bytes and the levels of the two level buffers. -/
def Block.SameButBytes (pk : List Byte) (a b : Block) : Prop :=
  b = { a with sPkt := pk, encBuf := b.encBuf, txBuf := b.txBuf }

/-- The block with other bytes in S_PKT. -/
def Block.withPacket (pk : List Byte) (b : Block) : Block := { b with sPkt := pk }

section
variable (c : Config) (now : Nat) {b : Block} {pk : List Byte}

/-- An attempt sees of the packet its length alone, but for the levels. -/
theorem attemptOp_withPacket (hlen : pk.length = b.sPkt.length) :
    (attemptOp c now (b.withPacket pk)).2 = (attemptOp c now b).2 ∧
      (attemptOp c now b).1.SameButBytes pk (attemptOp c now (b.withPacket pk)).1 := by
  have hpacket : (b.withPacket pk).packet.length = b.packet.length := by
    simp [Block.withPacket, Block.packet, hlen]
  obtain ⟨hover, h⟩ | ⟨hfits, hbusy, h⟩ | ⟨hfits, hidle, h⟩ := attemptOp_cases c now b
  · rw [h, attemptOp_of_overflow (b := b.withPacket pk) (by rw [hpacket]; exact hover)]
    exact ⟨rfl, rfl⟩
  · rw [h, attemptOp_of_busy (b := b.withPacket pk) (by rw [hpacket]; exact hfits) hbusy, hpacket]
    exact ⟨rfl, rfl⟩
  · obtain ⟨hover, -⟩ | ⟨-, hbusy, -⟩ | ⟨-, -, h'⟩ := attemptOp_cases c now (b.withPacket pk)
    · exact absurd hfits (by rw [← hpacket]; exact Nat.not_le.mpr hover)
    · exact absurd hidle hbusy
    · rw [h, h', hpacket]
      exact ⟨rfl, rfl⟩

/-- Before its attempt a SCHED_TICK tests no byte of the packet. -/
theorem schedTickOp_withPacket (hlen : pk.length = b.sPkt.length) :
    (schedTickOp c now (b.withPacket pk)).2 = (schedTickOp c now b).2 ∧
      (schedTickOp c now b).1.SameButBytes pk (schedTickOp c now (b.withPacket pk)).1 := by
  obtain ⟨ha, h⟩ | ⟨ha, hr, hi, h⟩ | ⟨ha, hr, hi, h⟩ | ⟨ha, hr, hdue, h⟩ | ⟨ha, hr, hdue, h⟩ :=
    schedTickOp_cases c now b
  · rw [h, schedTickOp_of_inactive (b := b.withPacket pk) ha]
    exact ⟨rfl, rfl⟩
  · rw [h, schedTickOp_of_exhausted_idle (b := b.withPacket pk) ha hr hi]
    exact ⟨rfl, rfl⟩
  · rw [h, schedTickOp_of_exhausted_busy (b := b.withPacket pk) ha hr hi]
    exact ⟨rfl, rfl⟩
  · rw [h, schedTickOp_of_not_due (b := b.withPacket pk) ha hr hdue]
    exact ⟨rfl, rfl⟩
  · rw [h, schedTickOp_of_due (b := b.withPacket pk) ha hr hdue]
    exact attemptOp_withPacket c now hlen

end

/-- Settles O42: the two packets have the same length, S_PKT's. -/
theorem packetBytesAreOpaque : Obligations.PacketBytesAreOpaque := by
  rintro s u s' u' now pk hs hpk rfl ht hu
  cases ht
  cases hu
  obtain ⟨hresponse, hblock⟩ := schedTickOp_withPacket Config.hw now (hpk.trans hs.symm)
  exact ⟨congrArg some hresponse, hblock⟩

end Sys2Proof.Machine

/-! Which operations move the transmitter (42_transmitter.md R86, R93, R94), and which attempts are accepted
(40_scheduler.md R66, R68). -/

namespace Sys2Proof.Machine

/-- The second block has the first one's transmitter but for RF_PIN. -/
structure Block.SameTx (a b : Block) : Prop where
  txState : b.txState = a.txState
  txCursor : b.txCursor = a.txCursor
  txBuf : b.txBuf = a.txBuf
  txLen : b.txLen = a.txLen

/-- The second block has the first one's count of attempts and deadline. -/
structure Block.SameDeadline (a b : Block) : Prop where
  sRemain : b.sRemain = a.sRemain
  sDue : b.sDue = a.sDue
  sLast : b.sLast = a.sLast

/-- An attempt at `now` is accepted in the first block and leaves the second (40_scheduler.md R68). -/
structure Block.AcceptedAt (c : Config) (now : Nat) (a b : Block) : Prop where
  active : a.sActive = true
  remains : a.sRemain ≠ 0#3
  due : a.attemptDue c now = true
  idle : a.txState = .idle
  txState : b.txState = .sending
  txCursor : b.txCursor = 0#8
  sRemain : b.sRemain = a.sRemain - 1#3
  sDue : b.sDue = false
  sLast : b.sLast = now

/-- An attempt is accepted, or touches neither the transmitter nor the count of attempts nor the deadline. -/
theorem attemptOp_accepted_or_kept (c : Config) (now : Nat) {b : Block} (ha : b.sActive = true) (hr : b.sRemain ≠ 0#3)
    (hdue : b.attemptDue c now = true) :
    ((attemptOp c now b).2 = ⟨.ok, 3#8⟩ ∧ b.AcceptedAt c now (attemptOp c now b).1) ∨
      ((attemptOp c now b).2 ≠ ⟨.ok, 3#8⟩ ∧ b.SameTx (attemptOp c now b).1 ∧
        b.SameDeadline (attemptOp c now b).1) := by
  obtain ⟨-, h⟩ | ⟨-, -, h⟩ | ⟨-, hidle, h⟩ := attemptOp_cases c now b
  case inr.inr => exact .inl (by rw [h]; exact ⟨rfl, ha, hr, hdue, hidle, rfl, rfl, rfl, rfl, rfl⟩)
  all_goals exact .inr (by rw [h]; exact ⟨by simp, ⟨rfl, rfl, rfl, rfl⟩, ⟨rfl, rfl, rfl⟩⟩)

/-- So does a SCHED_TICK. -/
theorem schedTickOp_accepted_or_kept (c : Config) (now : Nat) (b : Block) :
    ((schedTickOp c now b).2 = ⟨.ok, 3#8⟩ ∧ b.AcceptedAt c now (schedTickOp c now b).1) ∨
      ((schedTickOp c now b).2 ≠ ⟨.ok, 3#8⟩ ∧ b.SameTx (schedTickOp c now b).1 ∧
        b.SameDeadline (schedTickOp c now b).1) := by
  obtain ⟨-, h⟩ | ⟨-, -, -, h⟩ | ⟨-, -, -, h⟩ | ⟨-, -, -, h⟩ | ⟨ha, hr, hdue, h⟩ := schedTickOp_cases c now b
  case inr.inr.inr.inr =>
    rw [h]
    exact attemptOp_accepted_or_kept c now ha hr hdue
  all_goals exact .inr (by rw [h]; exact ⟨by simp, ⟨rfl, rfl, rfl, rfl⟩, ⟨rfl, rfl, rfl⟩⟩)

/-- Outside Idle no operation but TX_TICK writes the transmitter. -/
theorem effect_sameTx {i : Instr} {b : Block} (hbusy : b.txState ≠ .idle) (hi : i ≠ .txTick) :
    b.SameTx (effect i b).1 := by
  cases i with
  | txTick => exact absurd rfl hi
  | txStart => rw [effect, txStartOp_of_busy hbusy]; exact ⟨rfl, rfl, rfl, rfl⟩
  | schedTick now =>
    obtain ⟨-, hacc⟩ | ⟨-, hsame, -⟩ := schedTickOp_accepted_or_kept Config.hw now b
    · exact absurd hacc.idle hbusy
    · exact hsame
  | encode d => constructor <;> simp [effect]
  | txStatus | schedArm | schedCancel | schedStatus | pinClear => exact ⟨rfl, rfl, rfl, rfl⟩

/-- Settles O30: the operations but TX_TICK keep the transmitter's fields outside Idle. -/
theorem onlyTicksMoveAWaveformInFlight : Obligations.OnlyTicksMoveAWaveformInFlight := by
  intro i s t hbusy hi h
  obtain rfl := exec_eq_next_iff.mp h
  have hsame := effect_sameTx hbusy hi
  exact ⟨hsame.txState, hsame.txCursor, hsame.txBuf, hsame.txLen⟩

/-- Settles O29: only TX_START, TX_TICK and SCHED_TICK can write TX_STATE, each by its cases. -/
theorem transmitterTransitionsAreTheTable : Obligations.TransmitterTransitionsAreTheTable := by
  intro i s t h hne
  obtain rfl := exec_eq_next_iff.mp h
  rw [finish_block] at hne ⊢
  rw [finish_response]
  cases i with
  | txStart =>
    obtain ⟨-, he⟩ | ⟨-, -, he⟩ | ⟨hidle, hv, he⟩ := txStartOp_cases s.block
    case inr.inr => exact .inl ⟨hidle, by simp [effect, he], by simp [effect, he], .inl ⟨rfl, hv⟩⟩
    all_goals simp [effect, he] at hne
  | schedTick now =>
    obtain ⟨hresponse, hacc⟩ | ⟨-, hsame, -⟩ := schedTickOp_accepted_or_kept Config.hw now s.block
    · exact .inl ⟨hacc.idle, hacc.txState, hacc.txCursor, .inr ⟨now, rfl, hacc.active, hacc.remains,
        (attemptDue_hw_iff _ _).mp hacc.due, congrArg some hresponse⟩⟩
    · exact absurd hsame.txState hne
  | txTick =>
    obtain ⟨-, he⟩ | ⟨hjc, he⟩ | ⟨hsending, hlast, he⟩ | ⟨hsending, -, he⟩ := txTickOp_cases s.block
    · simp [effect, he] at hne
    · exact .inr (.inr ⟨hjc, by simp [effect, he], rfl⟩)
    · exact .inr (.inl ⟨hsending, by simp [effect, he], rfl, hlast, by simp [effect, he]⟩)
    · simp [effect, he] at hne
  | encode | txStatus | schedArm | schedCancel | schedStatus | pinClear => simp [effect] at hne

end Sys2Proof.Machine

/-! The invariant of a sound block, operation by operation (10_state.md R14, R16, R19, R20, R24, R27; 42_transmitter.md
R95). -/

namespace Sys2Proof.Machine

/-- Settles O55: the reset block by its definition. -/
theorem resetGivesTheSpecifiedValues : Obligations.ResetGivesTheSpecifiedValues :=
  ⟨⟨rfl, rfl, rfl, rfl, rfl, rfl, rfl⟩, ⟨List.length_replicate, List.length_replicate, List.length_replicate⟩⟩

/-- Settles O56: after reset the transmitter is Idle, nothing is staged and no attempt remains. -/
theorem resetIsSound : Obligations.ResetIsSound where
  shape := resetGivesTheSpecifiedValues.2
  encLen_le := Nat.zero_le _
  txLen_le := Nat.zero_le _
  staged := nofun
  active := nofun
  cursor_lt := nofun
  cursor_rest := fun _ => rfl
  pin_rest := fun _ => rfl
  remain_le := Nat.zero_le _
  inactive := fun _ => rfl
  last_lt := Nat.two_pow_pos _

section
variable {c : Config} {b : Block}

/-- A Waveform staged in its buffer has ENC_LEN levels, and at least one. -/
theorem encLen_pos_of_staged {d : List Byte} (h : b.Inv c) (hd : b.staged = waveform c d) :
    b.staged.length = b.encLen.toNat ∧ 0 < b.encLen.toNat := by
  have hlen : b.staged.length = b.encLen.toNat := by
    rw [Block.staged, List.length_take, h.shape.encBuf]
    exact Nat.min_eq_left h.encLen_le
  refine ⟨hlen, ?_⟩
  rw [← hlen, hd, waveform_length]
  exact levelCount_pos c _

theorem encodeOp_inv (hc : c.WellFormed) (d : List Byte) (h : b.Inv c) : (encodeOp c d b).1.Inv c := by
  obtain ⟨hcap, -⟩ := hc
  obtain ⟨-, he⟩ | ⟨hfits, he⟩ := encodeOp_cases c d b
  · rw [he]
    exact { h with shape := ⟨h.shape.encBuf, h.shape.txBuf, h.shape.sPkt⟩, staged := nofun }
  · have hstaged := encodeOp_staged hcap hfits h.shape.encBuf
    rw [he] at hstaged ⊢
    exact { h with
      shape := ⟨(writeBuf_length _ _).trans h.shape.encBuf, h.shape.txBuf, h.shape.sPkt⟩
      encLen_le := by rw [toNat_levelCount hcap hfits]; exact hfits
      staged := fun _ => ⟨d, hstaged⟩ }

theorem txStartOp_inv (h : b.Inv c) : (txStartOp b).1.Inv c := by
  obtain ⟨-, he⟩ | ⟨-, -, he⟩ | ⟨-, hv, he⟩ := txStartOp_cases b
  case inr.inr =>
    rw [he]
    obtain ⟨d, hd⟩ := h.staged hv
    obtain ⟨hlen, hpos⟩ := encLen_pos_of_staged h hd
    have hactive : (writeBuf b.txBuf b.staged).take b.encLen.toNat = b.staged := by
      rw [← hlen]
      exact writeBuf_take _ _ (by rw [hlen, h.shape.txBuf]; exact h.encLen_le)
    exact { h with
      shape := ⟨h.shape.encBuf, (writeBuf_length _ _).trans h.shape.txBuf, h.shape.sPkt⟩
      txLen_le := h.encLen_le
      staged := nofun
      active := fun _ => ⟨d, hactive.trans hd⟩
      cursor_lt := fun _ => hpos
      cursor_rest := fun hne => absurd rfl hne
      pin_rest := fun hne => absurd rfl hne }
  all_goals
    rw [he]
    exact h

/-- While Sending the cursor reads a level of the active Waveform. -/
theorem active_getElem?_cursor (h : b.txCursor.toNat < b.txLen.toNat) (htx : b.txLen.toNat ≤ b.txBuf.length) :
    b.active[b.txCursor.toNat]? = some b.cursorLevel := by
  have hlt : b.txCursor.toNat < b.txBuf.length := by omega
  simp [Block.active, Block.cursorLevel, h, hlt]

/-- The tick that enters JustCompleted outputs the Waveform's last level, which is Low (41_waveform_encoder.md R83). -/
theorem cursorLevel_of_last (hc : c.WellFormed) (h : b.Inv c) (hsending : b.txState = .sending)
    (hlast : b.txCursor + 1#8 = b.txLen) : b.cursorLevel = .low := by
  obtain ⟨-, -, -, -, hstop⟩ := hc
  obtain ⟨d, hd⟩ := h.active hsending
  have hlt := h.cursor_lt hsending
  have htx : b.txLen.toNat ≤ b.txBuf.length := by rw [h.shape.txBuf]; exact h.txLen_le
  have hcount : b.txCursor.toNat = levelCount c d.length - 1 := by
    have hlen : b.active.length = b.txLen.toNat := by simpa [Block.active] using htx
    rw [← waveform_length, ← hd, hlen]
    have := (cursor_succ_eq_txLen_iff hlt).mp hlast
    omega
  have hlevel := active_getElem?_cursor hlt htx
  rw [hd, hcount, waveform_getLast c d hstop] at hlevel
  exact (Option.some.inj hlevel).symm

theorem txTickOp_inv (hc : c.WellFormed) (h : b.Inv c) : (txTickOp b).Inv c := by
  obtain ⟨-, he⟩ | ⟨hjc, he⟩ | ⟨hsending, hlast, he⟩ | ⟨hsending, hmore, he⟩ := txTickOp_cases b
  · rw [he]
    exact h
  · rw [he]
    exact { h with
      shape := ⟨h.shape.encBuf, h.shape.txBuf, h.shape.sPkt⟩
      active := nofun
      cursor_lt := nofun
      cursor_rest := fun _ => h.cursor_rest (by simp [hjc])
      pin_rest := fun _ => h.pin_rest (by simp [hjc]) }
  · rw [he]
    exact { h with
      shape := ⟨h.shape.encBuf, h.shape.txBuf, h.shape.sPkt⟩
      active := nofun
      cursor_lt := nofun
      cursor_rest := fun _ => rfl
      pin_rest := fun _ => cursorLevel_of_last hc h hsending hlast }
  · rw [he]
    have hlt := h.cursor_lt hsending
    have hne : b.txCursor.toNat + 1 ≠ b.txLen.toNat := mt (cursor_succ_eq_txLen_iff hlt).mpr hmore
    exact { h with
      shape := ⟨h.shape.encBuf, h.shape.txBuf, h.shape.sPkt⟩
      cursor_lt := fun _ => by
        show (b.txCursor + 1#8).toNat < b.txLen.toNat
        rw [cursor_succ_toNat hlt]
        omega
      cursor_rest := fun hne => absurd hsending hne
      pin_rest := fun hne => absurd hsending hne }

theorem schedArmOp_inv (hc : c.WellFormed) (d : List Byte) (h : b.Inv c) : (schedArmOp c d b).Inv c := by
  obtain ⟨-, hattempts, -⟩ := hc
  exact { h with
    shape := ⟨h.shape.encBuf, h.shape.txBuf, (writeBuf_length _ _).trans h.shape.sPkt⟩
    remain_le := by
      show (BitVec.ofNat 3 c.nAttempts).toNat ≤ c.nAttempts
      rw [BitVec.toNat_ofNat]
      exact Nat.mod_le _ _
    inactive := nofun }

theorem closeAttempt_inv {t : Block × Response} {now : Nat} (hnow : now < 2 ^ c.clkW) (ha : t.1.sActive = true)
    (hr : t.1.sRemain ≠ 0#3) (h : t.1.Inv c) : (closeAttempt now t).1.Inv c := by
  unfold closeAttempt
  split
  · exact { h with
      shape := ⟨h.shape.encBuf, h.shape.txBuf, h.shape.sPkt⟩
      remain_le := by
        have hpred := remain_pred_toNat hr
        have hle := h.remain_le
        show (t.1.sRemain - 1#3).toNat ≤ c.nAttempts
        omega
      inactive := fun hf => Bool.noConfusion (ha.symm.trans hf)
      last_lt := hnow }
  · exact h

/-- An attempt is an ENCODE, perhaps a TX_START, and the count, each of which keeps a block sound. -/
theorem attemptOp_inv (hc : c.WellFormed) {now : Nat} (hnow : now < 2 ^ c.clkW) (ha : b.sActive = true)
    (hr : b.sRemain ≠ 0#3) (h : b.Inv c) : (attemptOp c now b).1.Inv c := by
  have henc := encodeOp_inv hc b.packet h
  unfold attemptOp
  split
  · exact closeAttempt_inv hnow (by simpa using ha) (by simpa using hr) (txStartOp_inv henc)
  · exact closeAttempt_inv hnow (by simpa using ha) (by simpa using hr) henc

theorem schedTickOp_inv (hc : c.WellFormed) {now : Nat} (hnow : now < 2 ^ c.clkW) (h : b.Inv c) :
    (schedTickOp c now b).1.Inv c := by
  obtain ⟨-, he⟩ | ⟨-, hr, -, he⟩ | ⟨-, -, -, he⟩ | ⟨-, -, -, he⟩ | ⟨ha, hr, -, he⟩ := schedTickOp_cases c now b
  case inr.inl =>
    rw [he]
    exact { h with shape := ⟨h.shape.encBuf, h.shape.txBuf, h.shape.sPkt⟩, inactive := fun _ => hr }
  case inr.inr.inr.inr =>
    rw [he]
    exact attemptOp_inv hc hnow ha hr h
  all_goals
    rw [he]
    exact h

end

/-- Every operation the interface can deliver keeps a sound block sound. -/
theorem effect_inv {i : Instr} {b : Block} (hwf : i.wf = true) (h : b.Inv Config.hw) :
    (effect i b).1.Inv Config.hw := by
  cases i with
  | encode d => exact encodeOp_inv hw_wellFormed d h
  | txStart => exact txStartOp_inv h
  | txTick => exact txTickOp_inv hw_wellFormed h
  | schedArm d => exact schedArmOp_inv hw_wellFormed d h
  | schedTick now =>
    obtain ⟨-, hnow⟩ := (Instr.wf_iff _).mp hwf
    exact schedTickOp_inv hw_wellFormed hnow h
  | schedCancel =>
    exact { h with
      shape := ⟨h.shape.encBuf, h.shape.txBuf, h.shape.sPkt⟩, remain_le := Nat.zero_le _, inactive := fun _ => rfl }
  | pinClear => exact { h with shape := ⟨h.shape.encBuf, h.shape.txBuf, h.shape.sPkt⟩, pin_rest := fun _ => rfl }
  | txStatus | schedStatus => exact h

/-- Settles O57: a step runs a decoded operation, whose operands are in range. -/
theorem stepKeepsTheStateSound : Obligations.StepKeepsTheStateSound := by
  intro s t h hstep
  obtain ⟨-, rfl⟩ | ⟨p, rest, i, -, hp, -, hblock, -⟩ := step_effect_cases hstep
  · exact h
  · unfold State.Inv
    rw [hblock]
    exact effect_inv (wf_of_decode hp) h

end Sys2Proof.Machine

/-! What a step does to the count of attempts and the deadline, and how often an attempt is accepted
(40_scheduler.md R72). -/

namespace Sys2Proof

theorem Issue.isArm_eq_false_iff (p : Issue) : p.isArm = false ↔ ∀ d, decode p ≠ .ok (.schedArm d) := by
  unfold Issue.isArm
  split
  · simp_all
  · simp_all

end Sys2Proof

namespace Sys2Proof.Machine

/-- The first `k` issues all satisfy `Q`. -/
def OnFirst (Q : Issue → Prop) (k : Nat) (s : State) : Prop := ∀ p ∈ s.issues.take k, Q p

theorem OnFirst.head {Q : Issue → Prop} {k : Nat} {s : State} (h : OnFirst Q (k + 1) s) (p : Issue)
    (rest : List Issue) (hs : s.issues = p :: rest) : Q p :=
  h p (by simp [hs])

theorem OnFirst.tail {Q : Issue → Prop} {k : Nat} {s t : State} (h : OnFirst Q (k + 1) s) (hstep : step s = .next t) :
    OnFirst Q k t := by
  intro p hp
  obtain ⟨hs, rfl⟩ | ⟨q, rest, i, hs, -, hissues, -, -⟩ := step_effect_cases hstep
  · simp [hs] at hp
  · exact h p (by rw [hs, List.take_succ_cons]; exact List.mem_cons_of_mem _ (hissues ▸ hp))

/-- A run of one step more, by its first step. -/
theorem run_succ_cases {k : Nat} {s u : State} (h : run (k + 1) s = .next u) :
    ∃ t, step s = .next t ∧ run k t = .next u := by
  cases hstep : step s with
  | next t => exact ⟨t, rfl, (run_succ hstep k).symm.trans h⟩
  | fault r => exact nomatch r
  | refused r => cases (run_refused hstep k).symm.trans h

theorem acceptedAttempts_succ {s t : State} (h : step s = .next t) (k : Nat) :
    acceptedAttempts (k + 1) s = (if acceptedAttempt s t then 1 else 0) + acceptedAttempts k t := by
  rw [acceptedAttempts, h]

theorem acceptedAttempts_of_refused {s : State} {e : Refusal} (h : step s = .refused e) (k : Nat) :
    acceptedAttempts (k + 1) s = 0 := by
  rw [acceptedAttempts, h]

/-- The count over a run and what follows it. -/
theorem acceptedAttempts_add {j k : Nat} {s t : State} (h : run j s = .next t) :
    acceptedAttempts (j + k) s = acceptedAttempts j s + acceptedAttempts k t := by
  induction j generalizing s with
  | zero =>
    cases h
    simp [acceptedAttempts]
  | succ j ih =>
    obtain ⟨u, hstep, hrun⟩ := run_succ_cases h
    rw [Nat.succ_add, acceptedAttempts_succ hstep, acceptedAttempts_succ hstep, ih hrun, Nat.add_assoc]

/-- An accepted attempt is a SCHED_TICK that answers RESULT 0b011. -/
theorem acceptedAttempt_iff (s t : State) :
    acceptedAttempt s t = true ↔
      ∃ p rest now, s.issues = p :: rest ∧ decode p = .ok (.schedTick now) ∧ t.response = some ⟨.ok, 3#8⟩ := by
  unfold acceptedAttempt
  split
  · simp_all
  · split <;> simp_all

/-- A step that is no SCHED_ARM accepts an attempt, or touches no deadline and adds no attempt. -/
theorem step_accepted_or_kept {s t : State} (harm : ∀ p rest, s.issues = p :: rest → p.isArm = false)
    (h : step s = .next t) :
    (acceptedAttempt s t = true ∧ ∃ p rest now, s.issues = p :: rest ∧ decode p = .ok (.schedTick now) ∧
      s.block.AcceptedAt Config.hw now t.block) ∨
    (acceptedAttempt s t = false ∧ t.block.sRemain.toNat ≤ s.block.sRemain.toNat ∧ t.block.sDue = s.block.sDue ∧
      t.block.sLast = s.block.sLast) := by
  obtain ⟨hs, rfl⟩ | ⟨p, rest, i, hs, hp, -, hblock, hresponse⟩ := step_effect_cases h
  · exact .inr ⟨by simp [acceptedAttempt, hs], le_refl _, rfl, rfl⟩
  cases i with
  | schedTick now =>
    have hiff : acceptedAttempt s t = true ↔ (schedTickOp Config.hw now s.block).2 = ⟨.ok, 3#8⟩ := by
      rw [acceptedAttempt_iff, hresponse]
      simp [hs, hp, effect]
    rw [hblock]
    obtain ⟨hyes, hacc⟩ | ⟨hno, -, hsame⟩ := schedTickOp_accepted_or_kept Config.hw now s.block
    · exact .inl ⟨hiff.mpr hyes, p, rest, now, hs, hp, hacc⟩
    · exact .inr ⟨by rw [← Bool.not_eq_true, hiff]; exact hno, Nat.le_of_eq (congrArg _ hsame.sRemain), hsame.sDue,
        hsame.sLast⟩
  | schedArm d => exact absurd hp ((Issue.isArm_eq_false_iff p).mp (harm p rest hs) d)
  | encode | txStart | txStatus | txTick | schedCancel | schedStatus | pinClear =>
    exact .inr ⟨by simp [acceptedAttempt, hs, hp], by simp [hblock, effect], by simp [hblock, effect],
      by simp [hblock, effect]⟩

/-- Without a SCHED_ARM no more attempts are accepted than remain. -/
theorem acceptedAttempts_le_remain {k : Nat} {s : State} (h : OnFirst (fun p => p.isArm = false) k s) :
    acceptedAttempts k s ≤ s.block.sRemain.toNat := by
  induction k generalizing s with
  | zero => exact Nat.zero_le _
  | succ k ih =>
    cases hstep : step s with
    | fault e => exact nomatch e
    | refused e => simp [acceptedAttempts_of_refused hstep]
    | next t =>
      have hk := ih (h.tail hstep)
      rw [acceptedAttempts_succ hstep]
      obtain ⟨hyes, p, rest, now, -, -, hacc⟩ | ⟨hno, hle, -, -⟩ := step_accepted_or_kept h.head hstep
      · have hpred := remain_pred_toNat hacc.remains
        rw [← hacc.sRemain] at hpred
        simp only [hyes, if_true]
        omega
      · simp only [hno, Bool.false_eq_true, if_false]
        omega

/-- Settles O43: a SCHED_ARM leaves five attempts. -/
theorem atMostFiveAttemptsPerArm : Obligations.AtMostFiveAttemptsPerArm := by
  intro s t d k ht harm
  cases ht
  exact acceptedAttempts_le_remain harm

/-- Without a SCHED_ARM the deadline stands until an attempt is accepted. -/
theorem run_keeps_deadline {k : Nat} {s u : State} (h : OnFirst (fun p => p.isArm = false) k s)
    (hnone : acceptedAttempts k s = 0) (hrun : run k s = .next u) :
    u.block.sDue = s.block.sDue ∧ u.block.sLast = s.block.sLast := by
  induction k generalizing s with
  | zero =>
    cases hrun
    exact ⟨rfl, rfl⟩
  | succ k ih =>
    obtain ⟨t, hstep, hrest⟩ := run_succ_cases hrun
    rw [acceptedAttempts_succ hstep, Nat.add_eq_zero_iff] at hnone
    obtain ⟨hfirst, hnone⟩ := hnone
    obtain ⟨hyes, -⟩ | ⟨-, -, hdue, hlast⟩ := step_accepted_or_kept h.head hstep
    · simp [hyes] at hfirst
    · obtain ⟨hdue', hlast'⟩ := ih (h.tail hstep) hnone hrest
      exact ⟨hdue'.trans hdue, hlast'.trans hlast⟩

/-- An accepted SCHED_TICK, its issue given. -/
theorem acceptedAt_of_step {s t : State} {p : Issue} {rest : List Issue} {now : Nat} (hs : s.issues = p :: rest)
    (hp : decode p = .ok (.schedTick now)) (h : step s = .next t) (hacc : acceptedAttempt s t = true) :
    s.block.AcceptedAt Config.hw now t.block := by
  have harm : ∀ q ps, s.issues = q :: ps → q.isArm = false := by
    intro q ps hq
    obtain ⟨rfl, -⟩ := List.cons.inj (hs.symm.trans hq)
    simp [Issue.isArm_eq_false_iff, hp]
  obtain ⟨-, q, ps, n, hq, hn, hat⟩ | ⟨hno, -⟩ := step_accepted_or_kept harm h
  · obtain ⟨rfl, -⟩ := List.cons.inj (hs.symm.trans hq)
    cases hp.symm.trans hn
    exact hat
  · exact absurd hacc (by simp [hno])

/-- Settles O44: the first attempt sets the deadline, which then stands until the second, so the second has waited. -/
theorem consecutiveAttemptsAreSpaced : Obligations.ConsecutiveAttemptsAreSpaced := by
  intro r s u t p q rest rest' ta tb k hr hp hfirst haccFirst harm hnone hrun hu hq hsecond haccSecond
  have hset := acceptedAt_of_step hr hp hfirst haccFirst
  obtain ⟨hdue, hlast⟩ := run_keeps_deadline harm hnone hrun
  have hwait := (attemptDue_hw_iff _ _).mp (acceptedAt_of_step hu hq hsecond haccSecond).due
  simpa [hdue, hset.sDue, hlast, hset.sLast] using hwait

end Sys2Proof.Machine

/-! A packet that does not fit (40_scheduler.md R73, 70_reset_and_hazards.md R124). -/

namespace Sys2Proof.Machine

/-- The second block has the first one's schedule but for S_LAST. -/
structure Block.SameSchedule (a b : Block) : Prop where
  sActive : b.sActive = a.sActive
  sRemain : b.sRemain = a.sRemain
  sDue : b.sDue = a.sDue
  sPkt : b.sPkt = a.sPkt
  sLen : b.sLen = a.sLen

/-- The scheduler is active with attempts left and a packet of nine bytes or more. -/
structure Block.Unencodable (b : Block) : Prop where
  active : b.sActive = true
  remains : b.sRemain ≠ 0#3
  long : 9 ≤ b.sLen.toNat
  sPkt : b.sPkt.length = 255

theorem Block.Unencodable.of_sameSchedule {a b : Block} (h : a.Unencodable) (hsame : a.SameSchedule b) :
    b.Unencodable where
  active := hsame.sActive.trans h.active
  remains := by rw [hsame.sRemain]; exact h.remains
  long := by rw [hsame.sLen]; exact h.long
  sPkt := by rw [hsame.sPkt]; exact h.sPkt

/-- A SCHED_TICK on a packet that does not fit waits, or finds the overflow and clears ENC_VALID. -/
theorem schedTickOp_of_unencodable {b : Block} (h : b.Unencodable) (now : Nat) :
    (∃ v, (schedTickOp Config.hw now b).1 = { b with encValid := v }) ∧
      (schedTickOp Config.hw now b).2 ≠ ⟨.ok, 3#8⟩ := by
  cases hdue : b.attemptDue Config.hw now with
  | false =>
    rw [schedTickOp_of_not_due h.active h.remains hdue]
    exact ⟨⟨b.encValid, rfl⟩, by simp⟩
  | true =>
    have hlong := h.long
    have hover : Config.hw.cap < levelCount Config.hw b.packet.length := by
      rw [levelCount_packet_hw h.sPkt, hw_cap]
      omega
    rw [schedTickOp_of_due h.active h.remains hdue, attemptOp_of_overflow hover]
    exact ⟨⟨false, rfl⟩, by simp⟩

/-- An operation but SCHED_ARM and SCHED_CANCEL keeps the schedule; but for TX_START it leaves an Idle
transmitter so. -/
theorem effect_of_unencodable {i : Instr} {b : Block} (h : b.Unencodable) (harm : ∀ d, i ≠ .schedArm d)
    (hcancel : i ≠ .schedCancel) :
    b.SameSchedule (effect i b).1 ∧ (b.txState = .idle → i ≠ .txStart → (effect i b).1.txState = .idle) := by
  cases i with
  | schedArm d => exact absurd rfl (harm d)
  | schedCancel => exact absurd rfl hcancel
  | schedTick now =>
    obtain ⟨⟨v, hv⟩, -⟩ := schedTickOp_of_unencodable h now
    rw [effect, hv]
    exact ⟨⟨rfl, rfl, rfl, rfl, rfl⟩, fun hidle _ => hidle⟩
  | txTick =>
    refine ⟨by constructor <;> simp [effect], fun hidle _ => ?_⟩
    rw [effect, txTickOp_of_idle hidle]
    exact hidle
  | encode d => exact ⟨by constructor <;> simp [effect], fun hidle _ => by simpa [effect] using hidle⟩
  | txStart => exact ⟨by constructor <;> simp [effect], fun _ hne => absurd rfl hne⟩
  | txStatus | schedStatus | pinClear => exact ⟨⟨rfl, rfl, rfl, rfl, rfl⟩, fun hidle _ => hidle⟩

/-- Settles O49: the step runs an operation that keeps the schedule, and no SCHED_TICK answers 0b011. -/
theorem unencodableScheduleIsKeptByEveryStep : Obligations.UnencodableScheduleIsKeptByEveryStep := by
  intro s t hinv ha hr hlen hissue hstep
  have hun : s.block.Unencodable := ⟨ha, hr, hlen, hinv.shape.sPkt⟩
  have hinv' : t.Inv := stepKeepsTheStateSound s t hinv hstep
  have hnot : acceptedAttempt s t = false := by
    obtain ⟨-, p, rest, now, hs, hp, -⟩ | ⟨hno, -⟩ :=
      step_accepted_or_kept (fun p rest hs => (hissue p rest hs).1) hstep
    · obtain ⟨-, hne⟩ := schedTickOp_of_unencodable hun now
      obtain rfl := Host.Outcome.next.inj ((step_eq_next_effect hs hp).symm.trans hstep)
      simpa [acceptedAttempt, hs, hp, effect] using hne
    · exact hno
  obtain ⟨hs, rfl⟩ | ⟨p, rest, i, hs, hp, -, hblock, -⟩ := step_effect_cases hstep
  · exact ⟨hinv', ha, rfl, rfl, rfl, rfl, hnot, fun hidle _ => ⟨hidle, hinv.pin_rest (by simp [hidle])⟩⟩
  obtain ⟨harm, hcancel⟩ := hissue p rest hs
  obtain ⟨hsame, hidle'⟩ := effect_of_unencodable hun (i := i)
    (fun d hd => (Issue.isArm_eq_false_iff p).mp harm d (hd ▸ hp)) (fun hd => hcancel (hd ▸ hp))
  rw [← hblock] at hsame hidle'
  refine ⟨hinv', hsame.sActive.trans ha, hsame.sRemain, hsame.sDue, hsame.sPkt, hsame.sLen, hnot,
    fun hidle hstart => ?_⟩
  have hstill := hidle' hidle (fun hd => hstart p rest hs (hd ▸ hp))
  exact ⟨hstill, hinv'.pin_rest (by simp [hstill])⟩

/-- Settles O48: induction over the run, each step by the step's statement. -/
theorem unencodablePacketNeverReachesTheAir : Obligations.UnencodablePacketNeverReachesTheAir := by
  intro s t k
  induction k generalizing s with
  | zero =>
    intro hinv ha hr hlen hidle _ hrun
    cases hrun
    exact ⟨ha, rfl, rfl, hidle, hinv.pin_rest (by simp [hidle]), rfl⟩
  | succ k ih =>
    intro hinv ha hr hlen hidle hissues hrun
    obtain ⟨u, hstep, hrest⟩ := run_succ_cases hrun
    have hkeeps : ∀ p rest, s.issues = p :: rest → p.isArm = false ∧ decode p ≠ .ok .schedCancel := by
      intro p rest hs
      obtain ⟨harm, hcancel, -⟩ := OnFirst.head hissues p rest hs
      exact ⟨harm, hcancel⟩
    have hstart : ∀ p rest, s.issues = p :: rest → decode p ≠ .ok .txStart := by
      intro p rest hs
      obtain ⟨-, -, hstart⟩ := OnFirst.head hissues p rest hs
      exact hstart
    obtain ⟨hinv', ha', hr', hdue', -, hlen', hnot, htx⟩ :=
      unencodableScheduleIsKeptByEveryStep s u hinv ha hr hlen hkeeps hstep
    obtain ⟨hidle', -⟩ := htx hidle hstart
    obtain ⟨ht1, ht2, ht3, ht4, ht5, hcount⟩ :=
      ih u hinv' ha' (by rw [hr']; exact hr) (by rw [hlen']; exact hlen) hidle' (OnFirst.tail hissues hstep) hrest
    refine ⟨ht1, ht2.trans hr', ht3.trans hdue', ht4, ht5, ?_⟩
    simp [acceptedAttempts_succ hstep, hnot, hcount]

end Sys2Proof.Machine

/-! Blocks that differ only in what no rule reads (10_state.md R17, R20, R31; 40_scheduler.md R65). -/

namespace Sys2Proof.Machine

/-! Every operation keeps the sizes of the buffers. -/

section
variable (c : Config) (now : Nat) (d : List Byte) (b : Block)

@[simp] theorem encodeOp_encBuf_length : (encodeOp c d b).1.encBuf.length = b.encBuf.length := by
  unfold encodeOp; split <;> simp
@[simp] theorem txStartOp_txBuf_length : (txStartOp b).1.txBuf.length = b.txBuf.length := by
  unfold txStartOp; repeat' split
  all_goals simp
@[simp] theorem attemptOp_encBuf_length : (attemptOp c now b).1.encBuf.length = b.encBuf.length := by
  unfold attemptOp; split <;> simp
@[simp] theorem attemptOp_txBuf_length : (attemptOp c now b).1.txBuf.length = b.txBuf.length := by
  unfold attemptOp; split <;> simp
@[simp] theorem schedTickOp_encBuf_length : (schedTickOp c now b).1.encBuf.length = b.encBuf.length := by
  unfold schedTickOp; repeat' split
  all_goals simp
@[simp] theorem schedTickOp_txBuf_length : (schedTickOp c now b).1.txBuf.length = b.txBuf.length := by
  unfold schedTickOp; repeat' split
  all_goals simp
@[simp] theorem schedArmOp_sPkt_length : (schedArmOp c d b).sPkt.length = b.sPkt.length := writeBuf_length _ _
end

theorem effect_shape {c : Config} {b : Block} (i : Instr) (h : b.Shape c) : (effect i b).1.Shape c := by
  obtain ⟨henc, htx, hpkt⟩ := h
  cases i <;> constructor <;> simpa [effect]

/-- Two results with the same response and alike blocks. -/
def AlikeResults (x y : Block × Response) : Prop := y.2 = x.2 ∧ x.1.Alike y.1

section
variable {a b : Block}

theorem encodeOp_alike {c : Config} (hcap : c.cap ≤ 255) (ha : a.encBuf.length = c.cap) (hb : b.encBuf.length = c.cap)
    (h : a.Alike b) (d : List Byte) : AlikeResults (encodeOp c d a) (encodeOp c d b) := by
  obtain ⟨hover, he⟩ | ⟨hfits, he⟩ := encodeOp_cases c d a
  · rw [he, encodeOp_of_overflow hover]
    exact ⟨rfl, { h with encValid := rfl, staged := nofun }⟩
  · have hstaged : (encodeOp c d b).1.staged = (encodeOp c d a).1.staged := by
      rw [encodeOp_staged hcap hfits ha, encodeOp_staged hcap hfits hb]
    rw [he, encodeOp_of_fits hfits] at hstaged ⊢
    refine ⟨rfl, { h with encValid := rfl, staged := fun _ => ⟨rfl, hstaged, ?_, ?_⟩ }⟩
    · rw [toNat_levelCount hcap hfits]
      exact levelCount_pos c _
    · rw [toNat_levelCount hcap hfits, writeBuf_length, ha]
      exact hfits

theorem txStartOp_alike (ha : a.encBuf.length ≤ a.txBuf.length) (hab : b.txBuf.length = a.txBuf.length)
    (h : a.Alike b) : AlikeResults (txStartOp a) (txStartOp b) := by
  obtain ⟨hbusy, he⟩ | ⟨hidle, hv, he⟩ | ⟨hidle, hv, he⟩ := txStartOp_cases a
  · rw [he, txStartOp_of_busy (by rw [h.txState]; exact hbusy)]
    exact ⟨rfl, h⟩
  · rw [he, txStartOp_of_invalid (h.txState.trans hidle) (h.encValid.trans hv)]
    exact ⟨rfl, h⟩
  · rw [he, txStartOp_of_ready (h.txState.trans hidle) (h.encValid.trans hv)]
    obtain ⟨hlen, hstaged, hpos, hle⟩ := h.staged hv
    have hcount : a.staged.length = a.encLen.toNat := by simpa [Block.staged] using hle
    have hactive : ∀ buf : List Level, buf.length = a.txBuf.length →
        (writeBuf buf a.staged).take a.encLen.toNat = a.staged := by
      intro buf hbuf
      rw [← hcount]
      exact writeBuf_take _ _ (by omega)
    refine ⟨rfl, { h with
      encValid := rfl
      txState := rfl
      txCursor := rfl
      staged := nofun
      sending := fun _ => ⟨hlen, ?_, hpos, by rw [writeBuf_length]; exact hle.trans ha⟩ }⟩
    simp only [Block.active]
    rw [hlen, hstaged, hactive _ hab, hactive _ rfl]

/-- While Sending the two cursors read the same level. -/
theorem cursorLevel_alike (h : a.Alike b) (hsending : a.txState = .sending)
    (hab : b.txBuf.length = a.txBuf.length) : b.cursorLevel = a.cursorLevel := by
  obtain ⟨hlen, hactive, hlt, hle⟩ := h.sending hsending
  have ha := active_getElem?_cursor hlt hle
  have hb := active_getElem?_cursor (b := b) (by rw [h.txCursor, hlen]; exact hlt) (by rw [hlen, hab]; exact hle)
  rw [hactive, h.txCursor, ha] at hb
  exact (Option.some.inj hb).symm

theorem txTickOp_alike (hab : b.txBuf.length = a.txBuf.length) (h : a.Alike b) :
    (txTickOp a).Alike (txTickOp b) := by
  obtain ⟨hidle, he⟩ | ⟨hjc, he⟩ | ⟨hsending, hlast, he⟩ | ⟨hsending, hmore, he⟩ := txTickOp_cases a
  · rw [he, txTickOp_of_idle (h.txState.trans hidle)]
    exact h
  · rw [he, txTickOp_of_justCompleted (h.txState.trans hjc)]
    exact { h with txState := rfl, sending := nofun }
  · obtain ⟨hlen, -⟩ := h.sending hsending
    rw [he, txTickOp_of_last (h.txState.trans hsending) (by rw [h.txCursor, hlen]; exact hlast)]
    exact { h with
      txState := rfl, txCursor := rfl, rfPin := cursorLevel_alike h hsending hab, sending := nofun }
  · obtain ⟨hlen, hactive, hlt, hle⟩ := h.sending hsending
    have hne : a.txCursor.toNat + 1 ≠ a.txLen.toNat := mt (cursor_succ_eq_txLen_iff hlt).mpr hmore
    rw [he, txTickOp_of_not_last (h.txState.trans hsending) (by rw [h.txCursor, hlen]; exact hmore)]
    refine { h with
      txCursor := congrArg (· + 1#8) h.txCursor
      rfPin := cursorLevel_alike h hsending hab
      sending := fun _ => ⟨hlen, hactive, ?_, hle⟩ }
    rw [cursor_succ_toNat hlt]
    exact Nat.lt_of_le_of_ne hlt hne

theorem schedArmOp_alike {c : Config} {d : List Byte} (hd : d.length ≤ 255) (ha : a.sPkt.length = 255)
    (hb : b.sPkt.length = 255) (h : a.Alike b) : (schedArmOp c d a).Alike (schedArmOp c d b) :=
  { h with
    sActive := rfl
    sRemain := rfl
    sDue := rfl
    packet := fun _ => ⟨rfl, by rw [schedArmOp_packet hd (by omega), schedArmOp_packet hd (by omega)]⟩
    last := nofun }

theorem closeAttempt_alike {x y : Block × Response} (now : Nat) (h : AlikeResults x y) :
    AlikeResults (closeAttempt now x) (closeAttempt now y) := by
  obtain ⟨hresponse, hblock⟩ := h
  unfold closeAttempt
  rw [hresponse]
  split
  · exact ⟨rfl, { hblock with
      sRemain := congrArg (· - 1#3) hblock.sRemain, sDue := rfl, last := fun _ _ => rfl }⟩
  · exact ⟨rfl, hblock⟩

/-- An attempt of an active scheduler reads the packet, and then acts by ENCODE and TX_START. -/
theorem attemptOp_alike {c : Config} (hcap : c.cap ≤ 255) (now : Nat) (ha : a.Shape c) (hb : b.Shape c)
    (hactive : a.sActive = true) (h : a.Alike b) : AlikeResults (attemptOp c now a) (attemptOp c now b) := by
  obtain ⟨-, hpacket⟩ := h.packet hactive
  have henc := encodeOp_alike hcap ha.encBuf hb.encBuf h a.packet
  have hstart := txStartOp_alike (by simp [ha.encBuf, ha.txBuf]) (by simp [ha.txBuf, hb.txBuf]) henc.2
  unfold attemptOp
  rw [hpacket, henc.1]
  split
  · exact closeAttempt_alike now hstart
  · exact closeAttempt_alike now henc

/-- The deadline of an active scheduler. -/
theorem attemptDue_alike (c : Config) (now : Nat) (hactive : a.sActive = true) (h : a.Alike b) :
    b.attemptDue c now = a.attemptDue c now := by
  unfold Block.attemptDue
  rw [h.sDue]
  cases hdue : a.sDue with
  | true => rfl
  | false => rw [h.last hactive hdue]

theorem schedTickOp_alike {c : Config} (hcap : c.cap ≤ 255) (now : Nat) (ha : a.Shape c) (hb : b.Shape c)
    (h : a.Alike b) : AlikeResults (schedTickOp c now a) (schedTickOp c now b) := by
  obtain ⟨hoff, he⟩ | ⟨hon, hr, hidle, he⟩ | ⟨hon, hr, hbusy, he⟩ | ⟨hon, hr, hdue, he⟩ | ⟨hon, hr, hdue, he⟩ :=
    schedTickOp_cases c now a
  · rw [he, schedTickOp_of_inactive (h.sActive.trans hoff)]
    exact ⟨rfl, h⟩
  · rw [he, schedTickOp_of_exhausted_idle (h.sActive.trans hon) (h.sRemain.trans hr) (h.txState.trans hidle)]
    exact ⟨rfl, { h with sActive := rfl, packet := nofun, last := nofun }⟩
  · rw [he, schedTickOp_of_exhausted_busy (h.sActive.trans hon) (h.sRemain.trans hr) (by rw [h.txState]; exact hbusy)]
    exact ⟨rfl, h⟩
  · rw [he, schedTickOp_of_not_due (h.sActive.trans hon) (by rw [h.sRemain]; exact hr)
      ((attemptDue_alike c now hon h).trans hdue)]
    exact ⟨rfl, h⟩
  · rw [he, schedTickOp_of_due (h.sActive.trans hon) (by rw [h.sRemain]; exact hr)
      ((attemptDue_alike c now hon h).trans hdue)]
    exact attemptOp_alike hcap now ha hb hon h

/-- Every operation the interface can deliver takes alike blocks to alike blocks, with the same answer. -/
theorem effect_alike {i : Instr} (hwf : i.wf = true) (ha : a.Shape Config.hw) (hb : b.Shape Config.hw) (h : a.Alike b) :
    AlikeResults (effect i a) (effect i b) := by
  have hcap : Config.hw.cap ≤ 255 := by decide
  cases i with
  | encode d => exact encodeOp_alike hcap ha.encBuf hb.encBuf h d
  | txStart => exact txStartOp_alike (by rw [ha.encBuf, ha.txBuf]) (by rw [ha.txBuf, hb.txBuf]) h
  | txTick => exact ⟨rfl, txTickOp_alike (by rw [ha.txBuf, hb.txBuf]) h⟩
  | schedArm d =>
    obtain ⟨hd, -⟩ := (Instr.wf_iff _).mp hwf
    exact ⟨rfl, schedArmOp_alike hd ha.sPkt hb.sPkt h⟩
  | schedTick now => exact schedTickOp_alike hcap now ha hb h
  | schedCancel => exact ⟨rfl, { h with sActive := rfl, sRemain := rfl, packet := nofun, last := nofun }⟩
  | pinClear => exact ⟨rfl, { h with rfPin := rfl }⟩
  | txStatus => exact ⟨by simp [effect, h.txState], h⟩
  | schedStatus => exact ⟨by simp [effect, h.sRemain, h.sActive], h⟩

/-- Blocks with the reset values that 10_state.md R31 gives agree in every field a rule can read. -/
theorem alike_of_specifiedReset (ha : a.SpecifiedReset) (hb : b.SpecifiedReset) : a.Alike b := by
  obtain ⟨ha1, ha2, ha3, ha4, ha5, ha6, ha7⟩ := ha
  obtain ⟨hb1, hb2, hb3, hb4, hb5, hb6, hb7⟩ := hb
  constructor <;> simp_all

end

/-- Settles O59: a refusal depends on the word alone, and an accepted word runs its operation on both blocks. -/
theorem alikeBlocksStayAlike : Obligations.AlikeBlocksStayAlike := by
  refine ⟨fun _ _ => alike_of_specifiedReset, fun a b ps r ha hb h => ?_⟩
  cases ps with
  | nil =>
    refine ⟨fun t ht => ?_, fun e he => ?_⟩
    · cases (step_of_nil rfl).symm.trans ht
      exact ⟨_, step_of_nil rfl, rfl, rfl, ha, hb, h⟩
    · cases (step_of_nil rfl).symm.trans he
  | cons p rest =>
    cases hp : decode p with
    | error e =>
      refine ⟨fun t ht => ?_, fun e' he => ?_⟩
      · cases (step_of_refused rfl hp).symm.trans ht
      · rw [← he, step_of_refused rfl hp, step_of_refused rfl hp]
    | ok i =>
      refine ⟨fun t ht => ?_, fun e he => ?_⟩
      · cases (step_eq_next_effect rfl hp).symm.trans ht
        obtain ⟨hresponse, hblock⟩ := effect_alike (wf_of_decode hp) ha hb h
        exact ⟨_, step_eq_next_effect rfl hp, rfl, congrArg some hresponse, effect_shape i ha,
          effect_shape i hb, hblock⟩
      · cases (step_eq_next_effect rfl hp).symm.trans he

/-- Runs from alike blocks cannot be told apart. -/
theorem run_alike (k : Nat) {a b : Block} {ps : List Issue} {r : Option Response} (ha : a.Shape Config.hw)
    (hb : b.Shape Config.hw) (h : a.Alike b) : SameObservation (run k ⟨a, ps, r⟩) (run k ⟨b, ps, r⟩) := by
  induction k generalizing a b ps r with
  | zero => exact ⟨rfl, h.rfPin.symm⟩
  | succ k ih =>
    obtain ⟨hnext, hrefused⟩ := alikeBlocksStayAlike.2 a b ps r ha hb h
    cases hstep : step ⟨a, ps, r⟩ with
    | fault e => exact nomatch e
    | refused e =>
      rw [run_refused hstep, run_refused (hrefused e hstep)]
      rfl
    | next t =>
      obtain ⟨⟨u, us, q⟩, hu, hissues, hresponse, ht, hushape, halike⟩ := hnext t hstep
      rw [run_succ hstep, run_succ hu]
      cases hissues
      cases hresponse
      exact ih ht hushape halike

/-- Settles O58: two blocks with the specified reset values are alike. -/
theorem unspecifiedResetContentsAreNeverObserved : Obligations.UnspecifiedResetContentsAreNeverObserved :=
  fun _ _ _ _ k hshape hshape' hreset hreset' =>
    run_alike k hshape hshape' (alike_of_specifiedReset hreset hreset')

end Sys2Proof.Machine

/-! Runs of accepted issues while a Waveform is in flight (42_transmitter.md R89, R94). -/

namespace Sys2Proof

theorem Issue.accepted_iff (p : Issue) : p.accepted = true ↔ ∃ i, decode p = .ok i := by
  unfold Issue.accepted
  cases decode p <;> simp

theorem Issue.isTick_iff (p : Issue) : p.isTick = true ↔ decode p = .ok .txTick := decide_eq_true_iff

theorem Issue.keepsArmed_iff (p : Issue) :
    p.keepsArmed = true ↔ ∃ i, decode p = .ok i ∧ (∀ d, i ≠ .schedArm d) ∧ i ≠ .schedCancel := by
  unfold Issue.keepsArmed
  rw [Bool.and_eq_true, Bool.and_eq_true, accepted_iff, Bool.not_eq_true', isArm_eq_false_iff, decide_eq_true_iff]
  constructor
  · rintro ⟨⟨⟨i, hi⟩, harm⟩, hcancel⟩
    exact ⟨i, hi, fun d hd => harm d (hd ▸ hi), fun hd => hcancel (hd ▸ hi)⟩
  · rintro ⟨i, hi, harm, hcancel⟩
    rw [hi]
    exact ⟨⟨⟨i, rfl⟩, fun d hd => harm d (Except.ok.inj hd)⟩, fun hd => hcancel (Except.ok.inj hd)⟩

/-- The clock operand of a decoded SCHED_TICK is the count in CLK_W bits. -/
theorem now_of_decode {p : Issue} {now : Nat} (h : decode p = .ok (.schedTick now)) :
    now = p.clock % 2 ^ Config.hw.clkW := by
  obtain ⟨-, hsel, -, -⟩ := (decodeFor_eq_ok_iff _ _ _).mp h
  obtain ⟨-, -, hnow⟩ := (selectOp_eq_some_iff _ _ _).mp hsel
  exact (hnow now rfl).symm

end Sys2Proof

namespace Sys2Proof.Machine

theorem run_inv {k : Nat} {s t : State} (h : s.Inv) (hrun : run k s = .next t) : t.Inv := by
  induction k generalizing s with
  | zero => exact Host.Outcome.next.inj hrun ▸ h
  | succ k ih =>
    obtain ⟨u, hstep, hrest⟩ := run_succ_cases hrun
    exact ih (stepKeepsTheStateSound s u h hstep) hrest

theorem tickCount_cons (p : Issue) (ps : List Issue) :
    tickCount (p :: ps) = tickCount ps + if p.isTick then 1 else 0 := List.countP_cons

/-- While Sending, before the last level, an accepted issue moves the cursor exactly when it is a tick. -/
theorem step_sending {s : State} {p : Issue} {rest : List Issue} (hs : s.issues = p :: rest) (hacc : p.accepted = true)
    (hsending : s.block.txState = .sending)
    (hlt : s.block.txCursor.toNat + (if p.isTick then 1 else 0) < s.block.txLen.toNat) :
    ∃ t, step s = .next t ∧ t.issues = rest ∧ t.block.txState = .sending ∧
      t.block.txCursor.toNat = s.block.txCursor.toNat + (if p.isTick then 1 else 0) ∧
      t.block.txBuf = s.block.txBuf ∧ t.block.txLen = s.block.txLen := by
  obtain ⟨i, hp⟩ := (Issue.accepted_iff p).mp hacc
  refine ⟨_, step_eq_next_effect hs hp, rfl, ?_⟩
  rw [finish_block]
  cases hcount : p.isTick with
  | true =>
    obtain rfl : .txTick = i := Except.ok.inj (((Issue.isTick_iff p).mp hcount).symm.trans hp)
    simp only [hcount, if_true] at hlt ⊢
    have hmore : s.block.txCursor + 1#8 ≠ s.block.txLen := by
      rw [ne_eq, cursor_succ_eq_txLen_iff (by omega)]
      omega
    rw [effect, txTickOp_of_not_last hsending hmore]
    exact ⟨hsending, cursor_succ_toNat (by omega), rfl, rfl⟩
  | false =>
    have htick : i ≠ .txTick := by
      rintro rfl
      simp [(Issue.isTick_iff p).mpr hp] at hcount
    have hsame := effect_sameTx (b := s.block) (by simp [hsending]) htick
    exact ⟨hsame.txState.trans hsending, congrArg _ hsame.txCursor, hsame.txBuf, hsame.txLen⟩

/-- So do a run of them, short of the Waveform's end. -/
theorem run_sending {ps rest : List Issue} {s : State} (hs : s.issues = ps ++ rest)
    (hacc : ∀ p ∈ ps, p.accepted = true) (hsending : s.block.txState = .sending)
    (hlt : s.block.txCursor.toNat + tickCount ps < s.block.txLen.toNat) :
    ∃ u, run ps.length s = .next u ∧ u.issues = rest ∧ u.block.txState = .sending ∧
      u.block.txCursor.toNat = s.block.txCursor.toNat + tickCount ps ∧ u.block.txBuf = s.block.txBuf ∧
      u.block.txLen = s.block.txLen := by
  induction ps generalizing s with
  | nil => exact ⟨s, rfl, hs, hsending, rfl, rfl, rfl⟩
  | cons p ps ih =>
    rw [tickCount_cons] at hlt ⊢
    obtain ⟨t, hstep, htissues, htstate, htcur, htbuf, htlen⟩ :=
      step_sending hs (hacc p (List.mem_cons_self ..)) hsending (by omega)
    obtain ⟨u, hrun, hissues, hstate, hcur, hbuf, hlen⟩ := ih htissues
      (fun q hq => hacc q (List.mem_cons_of_mem _ hq)) htstate (by rw [htcur, htlen]; omega)
    exact ⟨u, (run_succ hstep _).trans hrun, hissues, hstate, by omega, hbuf.trans htbuf, hlen.trans htlen⟩

/-- Settles O31: after the `k` ticks the cursor stands at level `k`, which the next tick puts out. -/
theorem startedWaveformRunsToCompletion : Obligations.StartedWaveformRunsToCompletion := by
  intro s ps rest hinv hsending hcursor hacc hlt hs
  have hzero : s.block.txCursor.toNat = 0 := by rw [hcursor]; rfl
  obtain ⟨u, hrun, hissues, hstate, hcur, hbuf, hlen⟩ := run_sending hs hacc hsending (by rw [hzero]; omega)
  rw [hzero, Nat.zero_add] at hcur
  have hlevel : s.block.txBuf[tickCount ps]? = some u.block.cursorLevel := by
    have hfits : s.block.txLen.toNat ≤ s.block.txBuf.length := by rw [hinv.shape.txBuf]; exact hinv.txLen_le
    have hread : tickCount ps < s.block.txBuf.length := by omega
    simp [Block.cursorLevel, hcur, hbuf, hread]
  have hbelow : u.block.txCursor.toNat < u.block.txLen.toNat := by rw [hcur, hlen]; exact hlt
  by_cases hlast : tickCount ps + 1 = s.block.txLen.toNat
  · obtain ⟨t, hstep, htissues, htblock⟩ :=
      step_tick_last hissues hstate ((cursor_succ_eq_txLen_iff hbelow).mpr (by rw [hcur, hlen]; exact hlast))
    refine ⟨t, (run_add hrun).trans (run_succ hstep 0), htissues, by rw [htblock]; exact hlevel, ?_⟩
    rw [if_pos hlast, htblock]
    exact ⟨rfl, rfl⟩
  · obtain ⟨t, hstep, htissues, htblock⟩ := step_tick_sending hissues hstate
      (mt (cursor_succ_eq_txLen_iff hbelow).mp (by rw [hcur, hlen]; exact hlast))
    refine ⟨t, (run_add hrun).trans (run_succ hstep 0), htissues, by rw [htblock]; exact hlevel, ?_⟩
    rw [if_neg hlast, htblock]
    exact ⟨hstate, by rw [← hcur]; exact cursor_succ_toNat hbelow⟩

/-- Outside Idle, accepted issues without a tick keep the transmitter. -/
theorem run_sameTx {ps rest : List Issue} {s : State} (hs : s.issues = ps ++ rest)
    (hacc : ∀ p ∈ ps, p.accepted = true) (hbusy : s.block.txState ≠ .idle) (hticks : tickCount ps = 0) :
    ∃ u, run ps.length s = .next u ∧ u.issues = rest ∧ s.block.SameTx u.block := by
  induction ps generalizing s with
  | nil => exact ⟨s, rfl, hs, rfl, rfl, rfl, rfl⟩
  | cons p ps ih =>
    obtain ⟨i, hp⟩ := (Issue.accepted_iff p).mp (hacc p (List.mem_cons_self ..))
    rw [tickCount_cons, Nat.add_eq_zero_iff] at hticks
    obtain ⟨hticks, hno⟩ := hticks
    have htick : i ≠ .txTick := by
      rintro rfl
      simp [(Issue.isTick_iff p).mpr hp] at hno
    have hsame := effect_sameTx hbusy htick
    obtain ⟨u, hrun, hissues, hrest⟩ := ih (s := { s with issues := ps ++ rest }.finish (effect i s.block)) rfl
      (fun q hq => hacc q (List.mem_cons_of_mem _ hq)) (by rw [finish_block, hsame.txState]; exact hbusy) hticks
    exact ⟨u, (run_succ (step_eq_next_effect hs hp) _).trans hrun, hissues, hrest.txState.trans hsame.txState,
      hrest.txCursor.trans hsame.txCursor, hrest.txBuf.trans hsame.txBuf, hrest.txLen.trans hsame.txLen⟩

/-- Settles O32: no issue but a tick leaves JustCompleted, and the invariant keeps RF_PIN Low outside Sending. -/
theorem justCompletedLastsOneTick : Obligations.JustCompletedLastsOneTick := by
  intro s ps rest hinv hjc hacc hticks hs
  obtain ⟨u, hrun, hissues, hsame⟩ := run_sameTx hs hacc (by simp [hjc]) hticks
  have hujc : u.block.txState = .justCompleted := hsame.txState.trans hjc
  obtain ⟨t, hstep, htissues, htblock⟩ := step_tick_justCompleted hissues hujc
  have hrunt : run (ps.length + 1) s = .next t := (run_add hrun).trans (run_succ hstep 0)
  have hidle : t.block.txState = .idle := by rw [htblock]
  exact ⟨u, t, hrun, hujc, (run_inv hinv hrun).pin_rest (by simp [hujc]), hrunt, hidle,
    (run_inv hinv hrunt).pin_rest (by simp [hidle]), htissues⟩

end Sys2Proof.Machine

/-! Schedules: one attempt, what may stand between two, and the whole schedule (40_scheduler.md R67, R74;
60_exceptions.md R108, R111). -/

namespace Sys2Proof.Machine

/-- A sound block whose scheduler holds the first `n` of the bytes `pk` with `r` attempts left. -/
structure Block.Armed (pk : List Byte) (n : BitVec 8) (r : Nat) (b : Block) : Prop where
  inv : b.Inv Config.hw
  active : b.sActive = true
  remain : b.sRemain.toNat = r
  sPkt : b.sPkt = pk
  sLen : b.sLen = n

/-- The packet's whole Waveform has been started and is still to go out. -/
structure Block.Started (pk : List Byte) (n : BitVec 8) (b : Block) : Prop where
  txState : b.txState = .sending
  txCursor : b.txCursor = 0#8
  active : b.active = waveform Config.hw (pk.take n.toNat)
  txLen : b.txLen.toNat = 81 + 16 * n.toNat

section
variable {pk : List Byte} {n : BitVec 8} {r time : Nat}

theorem Block.Armed.remains {b : Block} (h : b.Armed pk n r) (hr : 0 < r) : b.sRemain ≠ 0#3 := by
  intro hzero
  have hremain := h.remain
  rw [hzero] at hremain
  simp at hremain
  omega

theorem Block.Armed.of_sameSchedule {a b : Block} (h : a.Armed pk n r) (hinv : b.Inv Config.hw)
    (hsame : a.SameSchedule b) : b.Armed pk n r :=
  ⟨hinv, hsame.sActive.trans h.active, by rw [hsame.sRemain]; exact h.remain, hsame.sPkt.trans h.sPkt,
    hsame.sLen.trans h.sLen⟩

/-- A due SCHED_TICK in Idle starts the packet that fits, and counts one attempt. -/
theorem step_attempt {s : State} {rest : List Issue} (h : s.block.Armed pk n (r + 1)) (hn : n.toNat ≤ 8)
    (hdue : s.block.attemptDue Config.hw (time % 2 ^ Config.hw.clkW) = true) (hidle : s.block.txState = .idle)
    (hs : s.issues = Issue.schedTickAt time :: rest) :
    ∃ v, step s = .next v ∧ v.issues = rest ∧ v.response = some ⟨.ok, 3#8⟩ ∧ v.block.Armed pk n r ∧
      v.block.LastAt time ∧ v.block.Started pk n := by
  have hr : s.block.sRemain ≠ 0#3 := h.remains (Nat.succ_pos r)
  have hlen : s.block.sLen.toNat ≤ 8 := by rw [h.sLen]; exact hn
  obtain ⟨v, hexec, hissues, hresponse, hblock, hremain⟩ :=
    acceptedAttemptStartsThePacket { s with issues := rest } _ h.inv.shape h.active hr
      ((attemptDue_hw_iff _ _).mp hdue) hidle hlen
  have hstep : step s = .next v := (step_of_decode hs (decode_schedTickAt time)).trans hexec
  have hinv : v.block.Inv Config.hw := stepKeepsTheStateSound s v h.inv hstep
  have hcount : (BitVec.ofNat 8 (81 + 16 * n.toNat)).toNat = 81 + 16 * n.toNat := Nat.mod_eq_of_lt (by omega)
  have hpacket : (waveform Config.hw (pk.take n.toNat)).length = 81 + 16 * n.toNat := by
    have := packet_length h.inv.shape.sPkt
    rw [Block.packet, h.sPkt, h.sLen] at this
    rw [waveform_length, levelCount_hw, this]
  simp only [h.sPkt, h.sLen] at hblock
  refine ⟨v, hstep, hissues, hresponse, ⟨hinv, by rw [hblock]; exact h.active, ?_, by rw [hblock], by rw [hblock]⟩,
    by rw [hblock]; exact ⟨rfl, rfl⟩, by rw [hblock], by rw [hblock], ?_, by rw [hblock]; exact hcount⟩
  · have hold := h.remain
    simp only at hremain
    omega
  · rw [hblock]
    simp only [Block.active]
    rw [hcount, ← hpacket, List.take_left]

/-- A SCHED_TICK that answers RESULT 0b011 counts as one accepted attempt. -/
theorem acceptedAttempt_schedTickAt {s t : State} {rest : List Issue} (hs : s.issues = Issue.schedTickAt time :: rest)
    (h : t.response = some ⟨.ok, 3#8⟩) : acceptedAttempt s t = true :=
  (acceptedAttempt_iff s t).mpr ⟨_, _, _, hs, decode_schedTickAt time, h⟩

/-- The ticks of a started Waveform and the tick after them return to Idle and leave the schedule. -/
theorem run_waveform_to_idle {v : State} {rest : List Issue} (harmed : v.block.Armed pk n r)
    (hlast : v.block.LastAt time) (hstarted : v.block.Started pk n)
    (hs : v.issues = List.replicate (81 + 16 * n.toNat + 1) Issue.tick ++ rest) :
    ∃ t, run (81 + 16 * n.toNat + 1) v = .next t ∧ t.issues = rest ∧ t.block.txState = .idle ∧
      t.block.Armed pk n r ∧ t.block.LastAt time := by
  have hlevels : 81 + 16 * n.toNat + 1 = (80 + 16 * n.toNat) + 2 := by omega
  rw [hlevels] at hs ⊢
  obtain ⟨t, pin, hrun, hissues, hblock⟩ := run_ticks_to_idle (80 + 16 * n.toNat) (by rw [hstarted.txLen]; omega) hs
    hstarted.txState hstarted.txCursor
  refine ⟨t, hrun, hissues, by rw [hblock], harmed.of_sameSchedule (run_inv harmed.inv hrun) ?_, ?_⟩
  · rw [hblock]
    exact ⟨rfl, rfl, rfl, rfl, rfl⟩
  · rw [hblock]
    exact hlast

/-- The `k + 1`-st tick of a started Waveform puts out its level `k`. -/
theorem run_ticks_level {v : State} {rest : List Issue} {k : Nat} (hinv : v.Inv) (hstarted : v.block.Started pk n)
    (hk : k < 81 + 16 * n.toNat) (hs : v.issues = List.replicate (81 + 16 * n.toNat + 1) Issue.tick ++ rest) :
    ∃ u, run (k + 1) v = .next u ∧ (waveform Config.hw (pk.take n.toNat))[k]? = some u.block.rfPin := by
  have htick : Issue.tick.isTick = true := (Issue.isTick_iff _).mpr decode_tick
  have hcount : tickCount (List.replicate k Issue.tick) = k := by simp [tickCount, List.countP_replicate, htick]
  have hsplit : v.issues = List.replicate k Issue.tick ++
      Issue.tick :: (List.replicate (81 + 16 * n.toNat - k) Issue.tick ++ rest) := by
    rw [hs, show 81 + 16 * n.toNat + 1 = k + ((81 + 16 * n.toNat - k) + 1) by omega, List.replicate_add,
      List.replicate_succ, List.append_assoc, List.cons_append]
  obtain ⟨u, hrun, -, hpin, -⟩ := startedWaveformRunsToCompletion v _ _ hinv hstarted.txState hstarted.txCursor
    (fun p hp => (Issue.accepted_iff p).mpr ⟨_, List.eq_of_mem_replicate hp ▸ decode_tick⟩)
    (by rw [hcount, hstarted.txLen]; exact hk) hsplit
  rw [hcount] at hpin
  rw [List.length_replicate] at hrun
  refine ⟨u, hrun, ?_⟩
  rw [← hstarted.active, Block.active, List.getElem?_take_of_lt (by rw [hstarted.txLen]; exact hk), hpin]

end

/-- Settles O45: the attempt starts the packet's Waveform, and its ticks carry it out. -/
theorem oneAttemptSendsAndReturnsToIdle : Obligations.OneAttemptSendsAndReturnsToIdle := by
  intro s time rest hinv ha hr hidle hlen hdue hs
  have hpos : 0 < s.block.sRemain.toNat := by
    rw [Nat.pos_iff_ne_zero]
    exact fun h => hr (BitVec.eq_of_toNat_eq h)
  have harmed : s.block.Armed s.block.sPkt s.block.sLen (s.block.sRemain.toNat - 1 + 1) :=
    ⟨hinv, ha, (Nat.succ_pred_eq_of_pos hpos).symm, rfl, rfl⟩
  have hdue' : s.block.attemptDue Config.hw (time % 2 ^ Config.hw.clkW) = true := by
    obtain hdue | ⟨last, hlast, hwait, hlaw⟩ := hdue
    · exact (attemptDue_iff _ _ _).mpr (.inl hdue)
    · cases hcleared : s.block.sDue with
      | true => exact (attemptDue_iff _ _ _).mpr (.inl hcleared)
      | false => exact (attemptDue_of_lastAt ⟨hcleared, hlast⟩ (by omega) hlaw).mpr hwait
  obtain ⟨v, hstep, hissues, -, hv, hvlast, hstarted⟩ := step_attempt harmed hlen hdue' hidle hs
  refine ⟨fun k hk => ?_, ?_⟩
  · obtain ⟨u, hrun, hlevel⟩ := run_ticks_level hv.inv hstarted hk hissues
    exact ⟨u, (run_succ hstep _).trans hrun, hlevel⟩
  · obtain ⟨t, hrun, htissues, htidle, ht, hdueOff, hlast⟩ := run_waveform_to_idle hv hvlast hstarted hissues
    exact ⟨t, (run_succ hstep _).trans hrun, ht.inv, htissues, htidle, ht.inv.pin_rest (by simp [htidle]), ht.active,
      by rw [ht.remain]; omega, hlast, hdueOff, ht.sPkt, ht.sLen⟩

/-- Settles O52: the attempt after the SCHED_ARM starts the packet, and SCHED_CANCEL writes no transmitter field. -/
theorem inactiveSchedulerCanStillBeSending : Obligations.InactiveSchedulerCanStillBeSending := by
  intro d time hd
  have hwf : (Instr.schedArm d).wf = true := by simp [Instr.wf, Instr.wfFor]; omega
  have harm := step_eq_next_effect (s := { State.reset with
    issues := [encode (.schedArm d), Issue.schedTickAt time, encode .schedCancel] }) rfl
    (decodeOfEncodeIsTheOperation _ hwf)
  have hlen : (BitVec.ofNat 8 d.length).toNat = d.length := Nat.mod_eq_of_lt (by omega)
  have hpkt : d.length ≤ State.reset.block.sPkt.length := by
    rw [resetIsSound.shape.sPkt, hw_pktMax]
    omega
  obtain ⟨v, hattempt, hvissues, -, -, -, hstarted⟩ := step_attempt (n := BitVec.ofNat 8 d.length) (r := 4)
    (time := time)
    (s := { State.reset with issues := [Issue.schedTickAt time, encode .schedCancel] }.finish
      (schedArmOp Config.hw d State.reset.block, ⟨.ok, 0#8⟩))
    ⟨schedArmOp_inv hw_wellFormed d resetIsSound, rfl, rfl, rfl, rfl⟩ (hlen.trans_le hd)
    ((attemptDue_iff _ _ _).mpr (.inl rfl)) rfl rfl
  have hcancel := step_eq_next_effect hvissues (decodeOfEncodeIsTheOperation .schedCancel rfl)
  refine ⟨_, (run_succ harm 2).trans ((run_succ hattempt 1).trans (run_succ hcancel 0)), rfl, hstarted.txState,
    hstarted.txCursor, hstarted.active.trans (congrArg _ ?_)⟩
  exact schedArmOp_packet (c := Config.hw) (by omega) hpkt

/-! What may stand between two attempts. -/

section
variable {pk : List Byte} {n : BitVec 8} {r time : Nat}

/-- A SCHED_TICK finds the transmitter not Idle, or attempts left and the deadline not passed. -/
def QuietTick (r time : Nat) (q : Issue) (b : Block) : Prop :=
  b.txState ≠ .idle ∨ (0 < r ∧ time ≤ q.clock ∧ q.clock < time + 100000)

/-- Such a SCHED_TICK accepts no attempt and does not deactivate. -/
theorem schedTickOp_of_quiet {b : Block} {q : Issue} (h : b.Armed pk n r) (hlast : b.LastAt time)
    (hq : QuietTick r time q b) :
    (schedTickOp Config.hw (q.clock % 2 ^ Config.hw.clkW) b).2 ≠ ⟨.ok, 3#8⟩ ∧
      b.SameSchedule (schedTickOp Config.hw (q.clock % 2 ^ Config.hw.clkW) b).1 ∧
      b.SameDeadline (schedTickOp Config.hw (q.clock % 2 ^ Config.hw.clkW) b).1 := by
  have hactive : (schedTickOp Config.hw (q.clock % 2 ^ Config.hw.clkW) b).1.sActive = true := by
    rw [← Bool.not_eq_false]
    intro hcleared
    obtain ⟨hzero, hidle⟩ := schedTickOp_clears_sActive h.active hcleared
    obtain hbusy | ⟨hr, -, -⟩ := hq
    · exact hbusy hidle
    · exact h.remains hr hzero
  obtain ⟨-, hacc⟩ | ⟨hno, -, hsame⟩ := schedTickOp_accepted_or_kept Config.hw (q.clock % 2 ^ Config.hw.clkW) b
  · obtain hbusy | ⟨-, hle, hearly⟩ := hq
    · exact absurd hacc.idle hbusy
    · exact absurd hacc.due (by simp [attemptDue_eq_false_of_early hlast hle hearly])
  · exact ⟨hno, ⟨hactive.trans h.active.symm, hsame.sRemain, hsame.sDue, by simp, by simp⟩, hsame⟩

/-- An issue that may stand between two attempts leaves the schedule and counts no attempt. -/
theorem step_between {s : State} {p : Issue} {rest : List Issue} (h : s.block.Armed pk n r)
    (hlast : s.block.LastAt time) (hs : s.issues = p :: rest) (hp : p.keepsArmed = true)
    (hquiet : ∀ now, decode p = .ok (.schedTick now) → QuietTick r time p s.block) :
    ∃ t, step s = .next t ∧ t.issues = rest ∧ acceptedAttempt s t = false ∧ t.block.Armed pk n r ∧
      t.block.LastAt time := by
  obtain ⟨i, hi, harm, hcancel⟩ := (Issue.keepsArmed_iff p).mp hp
  have hstep := step_eq_next_effect hs hi
  suffices hkeep : acceptedAttempt s ({ s with issues := rest }.finish (effect i s.block)) = false ∧
      s.block.SameSchedule (effect i s.block).1 ∧ s.block.SameDeadline (effect i s.block).1 by
    obtain ⟨hno, hschedule, hdeadline⟩ := hkeep
    obtain ⟨hdue, hwhen⟩ := hlast
    exact ⟨_, hstep, rfl, hno, h.of_sameSchedule (stepKeepsTheStateSound s _ h.inv hstep) hschedule,
      hdeadline.sDue.trans hdue, hdeadline.sLast.trans hwhen⟩
  cases i with
  | schedArm d => exact absurd rfl (harm d)
  | schedCancel => exact absurd rfl hcancel
  | schedTick now =>
    obtain rfl := now_of_decode hi
    obtain ⟨hno, hkept⟩ := schedTickOp_of_quiet h hlast (hquiet _ hi)
    refine ⟨?_, hkept⟩
    simpa [acceptedAttempt, hs, hi, effect] using hno
  | encode | txStart | txStatus | txTick | schedStatus | pinClear =>
    exact ⟨by simp [acceptedAttempt, hs, hi], by constructor <;> simp [effect], by constructor <;> simp [effect]⟩

/-- So does a run of them. -/
theorem run_between {qs rest : List Issue} {s : State} (h : s.block.Armed pk n r) (hlast : s.block.LastAt time)
    (hs : s.issues = qs ++ rest) (hqs : ∀ q ∈ qs, q.keepsArmed = true)
    (hquiet : ∀ (k : Nat) q now u, qs[k]? = some q → decode q = .ok (.schedTick now) → run k s = .next u →
      QuietTick r time q u.block) :
    ∃ w, run qs.length s = .next w ∧ w.issues = rest ∧ acceptedAttempts qs.length s = 0 ∧ w.block.Armed pk n r ∧
      w.block.LastAt time := by
  induction qs generalizing s with
  | nil => exact ⟨s, rfl, hs, rfl, h, hlast⟩
  | cons q qs ih =>
    obtain ⟨t, hstep, hissues, hno, ht, htlast⟩ := step_between h hlast hs (hqs q (List.mem_cons_self ..))
      (fun now hq => hquiet 0 q now s rfl hq rfl)
    obtain ⟨w, hrun, hwissues, hcount, hw, hwlast⟩ := ih ht htlast hissues
      (fun p hp => hqs p (List.mem_cons_of_mem _ hp))
      (fun k p now u hp hd hu => hquiet (k + 1) p now u hp hd ((run_succ hstep k).trans hu))
    refine ⟨w, (run_succ hstep _).trans hrun, hwissues, ?_, hw, hwlast⟩
    rw [List.length_cons, acceptedAttempts_succ hstep, hno, hcount]
    rfl

end

/-! The slots of a schedule: in each a SCHED_TICK, and what is issued until the next one's. -/

/-- The SCHED_TICKs of two slots in a row are T_ATTEMPT apart, under the clock law. -/
def Spaced (slots : List (Nat × List Issue)) : Prop :=
  ∀ j a b, slots[j]? = some a → slots[j + 1]? = some b → a.1 + 100000 ≤ b.1 ∧ b.1 < a.1 + 2 ^ Config.hw.clkW

/-- The run from `s` is Idle before each slot and after the last. -/
def IdleAtSlots (slots : List (Nat × List Issue)) (s : State) : Prop :=
  ∀ j, j ≤ slots.length → ∀ u, run (scheduleIssues (slots.take j)).length s = .next u → u.block.txState = .idle

/-- A further SCHED_TICK inside a slot is quiet: it finds the transmitter not Idle, or comes before the next slot's
deadline. -/
def QuietInSlots (slots : List (Nat × List Issue)) (s : State) : Prop :=
  ∀ j x k q now u, slots[j]? = some x → x.2[k]? = some q → decode q = .ok (.schedTick now) →
    run ((scheduleIssues (slots.take j)).length + 1 + k) s = .next u →
    QuietTick (slots.length - (j + 1)) x.1 q u.block

/-- The SCHED_TICK of the first slot is due. -/
def FirstIsDue (slots : List (Nat × List Issue)) (b : Block) : Prop :=
  ∀ x, slots.head? = some x → b.attemptDue Config.hw (x.1 % 2 ^ Config.hw.clkW) = true

theorem scheduleIssues_cons (x : Nat × List Issue) (xs : List (Nat × List Issue)) :
    scheduleIssues (x :: xs) = Issue.schedTickAt x.1 :: (x.2 ++ scheduleIssues xs) := rfl

theorem scheduleIssues_cons_length (x : Nat × List Issue) (xs : List (Nat × List Issue)) :
    (scheduleIssues (x :: xs)).length = x.2.length + 1 + (scheduleIssues xs).length := by
  simp [scheduleIssues_cons]
  omega

section
variable {x : Nat × List Issue} {xs : List (Nat × List Issue)} {s w : State} {b : Block}

theorem Spaced.tail (h : Spaced (x :: xs)) : Spaced xs := fun j => h (j + 1)

/-- After a slot's SCHED_TICK the next slot's is due in its time. -/
theorem Spaced.firstIsDue (h : Spaced (x :: xs)) (hlast : b.LastAt x.1) : FirstIsDue xs b := by
  intro y hy
  obtain ⟨hwait, hlaw⟩ := h 0 x y rfl (by rw [← hy]; simp [List.head?_eq_getElem?])
  exact (attemptDue_of_lastAt hlast (by omega) hlaw).mpr hwait

theorem IdleAtSlots.head (h : IdleAtSlots (x :: xs) s) : s.block.txState = .idle :=
  h 0 (Nat.zero_le _) s rfl

theorem IdleAtSlots.tail (h : IdleAtSlots (x :: xs) s) (hrun : run (x.2.length + 1) s = .next w) :
    IdleAtSlots xs w := by
  intro j hj u hu
  refine h (j + 1) (Nat.succ_le_succ hj) u ?_
  rw [List.take_succ_cons, scheduleIssues_cons_length]
  exact (run_add hrun).trans hu

theorem QuietInSlots.tail (h : QuietInSlots (x :: xs) s) (hrun : run (x.2.length + 1) s = .next w) :
    QuietInSlots xs w := by
  intro j y k q now u hy hq hd hu
  have hquiet := h (j + 1) y k q now u hy hq hd (by
    rw [List.take_succ_cons, scheduleIssues_cons_length, Nat.add_assoc, Nat.add_assoc, run_add hrun,
      ← Nat.add_assoc]
    exact hu)
  simpa using hquiet

end

section
variable {pk : List Byte} {n : BitVec 8}

/-- One slot: its SCHED_TICK starts the packet, and what follows leaves the schedule for the next. -/
theorem run_slot {x : Nat × List Issue} {xs : List (Nat × List Issue)} {s : State} {rest : List Issue}
    (h : s.block.Armed pk n (x :: xs).length) (hn : n.toNat ≤ 8) (hdue : FirstIsDue (x :: xs) s.block)
    (hidle : s.block.txState = .idle) (hkeeps : ∀ p ∈ x.2, p.keepsArmed = true) (hquiet : QuietInSlots (x :: xs) s)
    (hs : s.issues = scheduleIssues (x :: xs) ++ rest) :
    (∃ v, run 1 s = .next v ∧ v.response = some ⟨.ok, 3#8⟩ ∧ v.block.Started pk n ∧
      v.block.Armed pk n xs.length) ∧
    acceptedAttempts (x.2.length + 1) s = 1 ∧
    ∃ w, run (x.2.length + 1) s = .next w ∧ w.issues = scheduleIssues xs ++ rest ∧ w.block.Armed pk n xs.length ∧
      w.block.LastAt x.1 := by
  rw [scheduleIssues_cons, List.cons_append, List.append_assoc] at hs
  obtain ⟨v, hstep, hissues, hresponse, hv, hvlast, hstarted⟩ := step_attempt h hn (hdue x rfl) hidle hs
  obtain ⟨w, hrun, hwissues, hnone, hw, hwlast⟩ := run_between hv hvlast hissues hkeeps fun k q now u hq hd hu => by
    have hquiet' := hquiet 0 x k q now u rfl hq hd (by
      rw [show (scheduleIssues ((x :: xs).take 0)).length + 1 + k = k + 1 by simp [scheduleIssues]; omega]
      exact (run_succ hstep k).trans hu)
    simpa using hquiet'
  refine ⟨⟨v, run_succ hstep 0, hresponse, hstarted, hv⟩, ?_, w, (run_succ hstep _).trans hrun, hwissues, hw, hwlast⟩
  rw [acceptedAttempts_succ hstep, acceptedAttempt_schedTickAt hs hresponse, hnone]
  rfl

/-- A schedule with as many attempts as slots makes one in each. -/
theorem run_slots {slots : List (Nat × List Issue)} {s : State} {rest : List Issue}
    (h : s.block.Armed pk n slots.length) (hn : n.toNat ≤ 8) (hdue : FirstIsDue slots s.block) (hspaced : Spaced slots)
    (hidle : IdleAtSlots slots s) (hkeeps : ∀ x ∈ slots, ∀ p ∈ x.2, p.keepsArmed = true)
    (hquiet : QuietInSlots slots s) (hs : s.issues = scheduleIssues slots ++ rest) :
    (∀ j x, slots[j]? = some x → ∃ u, run ((scheduleIssues (slots.take j)).length + 1) s = .next u ∧
      u.response = some ⟨.ok, 3#8⟩ ∧ u.block.Started pk n ∧ u.block.Armed pk n (slots.length - (j + 1))) ∧
    acceptedAttempts (scheduleIssues slots).length s = slots.length ∧
    ∃ w, run (scheduleIssues slots).length s = .next w ∧ w.issues = rest ∧ w.block.Armed pk n 0 ∧
      w.block.txState = .idle := by
  induction slots generalizing s with
  | nil => exact ⟨nofun, rfl, s, rfl, hs, h, hidle 0 (Nat.zero_le _) s rfl⟩
  | cons x xs ih =>
    obtain ⟨⟨v, hfirst, hresponse, hstarted, hv⟩, hone, w, hrun, hwissues, hw, hwlast⟩ :=
      run_slot h hn hdue hidle.head (hkeeps x (List.mem_cons_self ..)) hquiet hs
    obtain ⟨hslots, hcount, z, hrunz, hzissues, hz, hzidle⟩ := ih hw (hspaced.firstIsDue hwlast) hspaced.tail
      (hidle.tail hrun) (fun y hy => hkeeps y (List.mem_cons_of_mem _ hy)) (hquiet.tail hrun) hwissues
    rw [scheduleIssues_cons_length]
    refine ⟨fun j y hy => ?_, ?_, z, (run_add hrun).trans hrunz, hzissues, hz, hzidle⟩
    · cases j with
      | zero => exact ⟨v, hfirst, hresponse, hstarted, by simpa using hv⟩
      | succ j =>
        obtain ⟨u, hu, huresponse, hustarted, huarmed⟩ := hslots j y hy
        refine ⟨u, ?_, huresponse, hustarted, by simpa using huarmed⟩
        rw [List.take_succ_cons, scheduleIssues_cons_length, Nat.add_assoc, run_add hrun]
        exact hu
    · rw [acceptedAttempts_add hrun, hone, hcount, List.length_cons, Nat.add_comm]

/-- With no attempts left the next SCHED_TICK in Idle deactivates. -/
theorem step_deactivate {w : State} {time : Nat} {rest : List Issue} (h : w.block.Armed pk n 0)
    (hidle : w.block.txState = .idle) (hs : w.issues = Issue.schedTickAt time :: rest) :
    ∃ t, step w = .next t ∧ t.issues = rest ∧ acceptedAttempt w t = false ∧ t.response = some ⟨.ok, 4#8⟩ ∧
      t.block.sActive = false ∧ t.block.sRemain = 0#3 ∧ t.block.txState = .idle ∧ t.block.rfPin = .low := by
  have hzero : w.block.sRemain = 0#3 := BitVec.eq_of_toNat_eq h.remain
  have hstep := step_schedTickAt hs
  rw [schedTickOp_of_exhausted_idle h.active hzero hidle] at hstep
  exact ⟨_, hstep, rfl, by simp [acceptedAttempt, hs, decode_schedTickAt], rfl, rfl, hzero, hidle,
    h.inv.pin_rest (by simp [hidle])⟩

/-- Slots that hold exactly the ticks of each Waveform are Idle at each slot. -/
theorem idleAtSlots_of_exact_ticks {times : List Nat} {slots : List (Nat × List Issue)} {s : State}
    {rest : List Issue}
    (hslots : slots = times.map fun a => (a, List.replicate (81 + 16 * n.toNat + 1) Issue.tick))
    (h : s.block.Armed pk n slots.length) (hn : n.toNat ≤ 8) (hdue : FirstIsDue slots s.block)
    (hspaced : Spaced slots) (hidle : s.block.txState = .idle) (hs : s.issues = scheduleIssues slots ++ rest) :
    IdleAtSlots slots s := by
  induction times generalizing slots s with
  | nil =>
    subst hslots
    intro j _ u hu
    cases List.take_nil (i := j) ▸ hu
    exact hidle
  | cons a times ih =>
    subst hslots
    rw [List.map_cons, scheduleIssues_cons, List.cons_append, List.append_assoc] at hs
    obtain ⟨v, hstep, hissues, -, hv, hvlast, hstarted⟩ := step_attempt h hn (hdue _ rfl) hidle hs
    obtain ⟨w, hrun, hwissues, hwidle, hw, hwlast⟩ := run_waveform_to_idle hv hvlast hstarted hissues
    have hrest := ih rfl hw (hspaced.firstIsDue hwlast) hspaced.tail hwidle hwissues
    intro j hj u hu
    cases j with
    | zero =>
      cases hu
      exact hidle
    | succ j =>
      rw [List.map_cons, List.take_succ_cons, scheduleIssues_cons_length, List.length_replicate,
        run_add ((run_succ hstep _).trans hrun)] at hu
      exact hrest j (by simpa using hj) u hu

end

/-- Settles O47: one attempt in each of the five slots, and then none is left. -/
theorem fullScheduleToleratesInterleavedIssues : Obligations.FullScheduleToleratesInterleavedIssues := by
  intro s slots tEnd rest hinv ha hr hdue hn hfive hspaced hkeeps hs hidle hquiet
  have harmed : s.block.Armed s.block.sPkt s.block.sLen slots.length := ⟨hinv, ha, by rw [hr, hfive]; rfl, rfl, rfl⟩
  have hquiet' : QuietInSlots slots s := by
    intro j x k q now u hx hq hd hu
    obtain hbusy | ⟨hj, hearly⟩ := hquiet j x k q now u hx hq hd hu
    · exact .inl hbusy
    · exact .inr ⟨by omega, hearly⟩
  have hidle' : IdleAtSlots slots s := fun j hj => hidle j (hfive ▸ hj)
  obtain ⟨hslots, hcount, w, hrun, hwissues, hw, hwidle⟩ := run_slots harmed hn
    (fun _ _ => (attemptDue_iff _ _ _).mpr (.inl hdue)) hspaced hidle' hkeeps hquiet' hs
  obtain ⟨t, hstep, htissues, hno, hresponse, hoff, hzero, htidle, hpin⟩ := step_deactivate hw hwidle hwissues
  refine ⟨fun j x hx => ?_, ?_, t, (run_add hrun).trans (run_succ hstep 0), htissues, hresponse, hoff, hzero, htidle,
    hpin⟩
  · obtain ⟨u, hu, huresponse, hstarted, huarmed⟩ := hslots j x hx
    obtain ⟨hj, -⟩ := List.getElem?_eq_some_iff.mp hx
    exact ⟨u, hu, huresponse, hstarted.txState, hstarted.txCursor, hstarted.active, huarmed.active,
      by rw [huarmed.remain]; omega⟩
  · rw [acceptedAttempts_add hrun, hcount, acceptedAttempts_succ hstep, hno, hfive]
    rfl

/-- Settles O46: the exact ticks bring the transmitter back to Idle at each slot, and no SCHED_TICK stands between. -/
theorem fullScheduleMakesFiveAttemptsAndDeactivates : Obligations.FullScheduleMakesFiveAttemptsAndDeactivates := by
  intro s t1 t2 t3 t4 t5 t6 rest hinv ha hr hdue hidle hn h12 h12' h23 h23' h34 h34' h45 h45' hs
  obtain ⟨slots, hslots⟩ : ∃ slots, slots = [t1, t2, t3, t4, t5].map
    fun a => (a, List.replicate (81 + 16 * s.block.sLen.toNat + 1) Issue.tick) := ⟨_, rfl⟩
  have hfive : slots.length = 5 := by rw [hslots]; rfl
  have hissues : s.issues = scheduleIssues slots ++ Issue.schedTickAt t6 :: rest := by
    simp [hs, hslots, scheduleIssues, attemptIssues]
  have htotal : (scheduleIssues slots).length = 5 * (81 + 16 * s.block.sLen.toNat + 2) := by
    simp [hslots, scheduleIssues]
    omega
  have hspaced : Spaced slots := by
    intro j a b hja hjb
    have hj : j < 4 := by
      obtain ⟨hlt, -⟩ := List.getElem?_eq_some_iff.mp hjb
      omega
    subst hslots
    interval_cases j <;> cases hja <;> cases hjb <;> constructor <;> assumption
  have hticks : ∀ x ∈ slots, ∀ p ∈ x.2, p = Issue.tick := by
    intro x hx p hp
    subst hslots
    obtain ⟨a, -, rfl⟩ := List.mem_map.mp hx
    exact List.eq_of_mem_replicate hp
  have hexact : IdleAtSlots slots s := idleAtSlots_of_exact_ticks hslots
    ⟨hinv, ha, by rw [hr, hfive]; rfl, rfl, rfl⟩ hn (fun _ _ => (attemptDue_iff _ _ _).mpr (.inl hdue)) hspaced hidle
    hissues
  rw [← htotal]
  obtain ⟨-, hcount, hend⟩ := fullScheduleToleratesInterleavedIssues s slots t6 rest hinv ha hr hdue hn hfive hspaced
    (fun x hx p hp => by rw [hticks x hx p hp]; decide) hissues (fun j hj => hexact j (hfive.symm ▸ hj))
    (fun j x k q now u hx hq hd _ => by
      rw [hticks x (List.mem_of_getElem? hx) q (List.mem_of_getElem? hq), decode_tick] at hd
      cases hd)
  exact ⟨hcount, hend⟩

end Sys2Proof.Machine
